-- ==== Sys2Proof/Word.lean ====
section
/-! DEFINITION. The word types of the BLX-440 model: a byte, a 32-byte ring record, a 256-byte anchor
record and a 10-bit line character, all as plain bit vectors. Bit 0 of a record is bit 0 of its first byte
(little-endian, Conventions of 00_scope.md), and bit 0 of a character is the bit that goes first on the wire
(R1). -/

namespace Sys2Proof

/-- One byte. -/
abbrev Byte := BitVec 8

/-- One 32-byte record or entry of a ring (R163): byte k is bits 8k+7..8k. -/
abbrev Record := BitVec 256

/-- The 256-byte anchor record (10.3): byte k is bits 8k+7..8k. -/
abbrev AnchorRecord := BitVec 2048

/-- One 10-bit VPL character (R1): bit 0 the kind bit, bits 8..1 the value, bit 9 the parity bit, the order
in which the bits go on the wire. -/
abbrev Character := BitVec 10

/-- An address of host memory. -/
abbrev HostAddress := BitVec 64

end Sys2Proof
end

