-- ==== Sys2Proof/Syntax.lean ====
section
/-! DEFINITION. The commands of the BLX-440: one constructor of `Instr` for each row of
spec/opcode_table.json, in the table's order. A row that is a write of a register carries the 32 bits written;
a row that is the return of a read carries what the read returned, `none` for a read that failed in host
memory; a row that is an event of a line carries the line. The ten rows that carry out a command of the command
ring carry nothing: the command's line and parameters are those of the entry that COMMAND_READ_DONE took
(R178, R180). -/

namespace Sys2Proof

/-- One of the four VPL lines L0 to L3. -/
inductive LineId where
  | l0
  | l1
  | l2
  | l3
  deriving DecidableEq, Repr

/-- A part-written ring (R163): the notice ring or the completion ring of a line. -/
inductive PartRing where
  | notice
  | completion (n : LineId)
  deriving DecidableEq, Repr

/-- One of the two anchor registers (R154). -/
inductive AnchorHalf where
  | low
  | high
  deriving DecidableEq, Repr

/-- One of the six registers of the window (R154). -/
inductive WindowRegister where
  | ident
  | control
  | status
  | anchorLow
  | anchorHigh
  | post
  deriving DecidableEq, Repr

/-- The operations and events of the part, one for each row of the opcode table. -/
inductive Instr where
  /-- ENABLE (R157): a 32-bit write to CONTROL with ENABLE set and RESET clear. -/
  | enable (value : BitVec 32)
  /-- RESET (R162): a 32-bit write to CONTROL with RESET set. -/
  | reset (value : BitVec 32)
  /-- POWER_ON (R162, R44). -/
  | powerOn
  /-- ANCHOR_WRITE (R154, R199): a write to ANCHOR_LOW or ANCHOR_HIGH of the byte lanes marked. -/
  | anchorWrite (half : AnchorHalf) (lanes : BitVec 4) (value : BitVec 32)
  /-- REGISTER_WRITE (R154): a write to a register with no behaviour of its own, or a narrow write to CONTROL
  or POST. -/
  | registerWrite (register : WindowRegister) (lanes : BitVec 4) (value : BitVec 32)
  /-- POST_HOST_RING (R166): a 32-bit write to POST naming a host-written ring, or no ring (R168). -/
  | postHostRing (value : BitVec 32)
  /-- POST_PART_RING (R167): a 32-bit write to POST naming a part-written ring. -/
  | postPartRing (value : BitVec 32)
  /-- POST_ARM (R173): a 32-bit write to POST naming a part-written ring, with the arm request set. -/
  | postArm (value : BitVec 32)
  /-- ANCHOR_READ_DONE (R158): the reads of the anchor record complete. -/
  | anchorReadDone (data : Option AnchorRecord)
  /-- SLOT_GRANTED (R171): a waiting reservation request on a part-written ring is granted. -/
  | slotGranted (ring : PartRing)
  /-- PENDING_NOTICE_WRITE (R176). -/
  | pendingNoticeWrite
  /-- COMMAND_READ_DONE (R178): the read of the command entry returns. -/
  | commandReadDone (entry : Option Record)
  /-- LINK_CONFIGURE (R183, R184). -/
  | linkConfigure
  /-- LINK_START (R185). -/
  | linkStart
  /-- LINK_STOP (R186). -/
  | linkStop
  /-- LINK_FLUSH (R187). -/
  | linkFlush
  /-- LINK_HOLD (R188). -/
  | linkHold
  /-- SEND_CANCEL (R189). -/
  | sendCancel
  /-- TABLE_WRITE (R190). -/
  | tableWrite
  /-- TABLE_READ (R191). -/
  | tableRead
  /-- TIME_SET (R192). -/
  | timeSet
  /-- QUERY_LINK (R193). -/
  | queryLink
  /-- CHARACTER_ALIGN (R10): the bits at a position of the incoming stream, tested in LISTEN. -/
  | characterAlign (line : LineId) (c : Character)
  /-- RX_CONNECT_CHAR (R12): a character received in CONNECT. -/
  | rxConnectChar (line : LineId) (c : Character)
  /-- RX_RUN_CHAR (R16): a character received in RUN. -/
  | rxRunChar (line : LineId) (c : Character)
  /-- HANDSHAKE_TIMEOUT (R13). -/
  | handshakeTimeout (line : LineId)
  /-- SILENCE (R14). -/
  | silence (line : LineId)
  /-- QUIET_TIMER_EXPIRY (R20). -/
  | quietTimerExpiry (line : LineId)
  /-- CHARACTER_BOUNDARY (R17). -/
  | characterBoundary (line : LineId)
  /-- PERIOD_TIMER_EXPIRY (R146). -/
  | periodTimerExpiry
  /-- HEAD_TIMER_EXPIRY (R86). -/
  | headTimerExpiry (line : LineId)
  /-- DELIVERY_RECORD_RESUME (R107). -/
  | deliveryRecordResume (line : LineId)
  /-- FILL_RECORD_READ_DONE (R101): the read of a fill record returns. -/
  | fillRecordReadDone (line : LineId) (data : Option Record)
  /-- DELIVERY_BUFFER_DONE (R104). -/
  | deliveryBufferDone (line : LineId)
  /-- SEND_RECORD_READ_DONE (R118): the read of a send record returns. -/
  | sendRecordReadDone (line : LineId) (data : Option Record)
  /-- HOST_DATA_READ_DONE (R126): the read of packet bytes at a place of the line's list of reads in flight,
  counted from 0 in packet order, returns its bytes. -/
  | hostDataReadDone (line : LineId) (place : Nat) (data : Option (List Byte))
  /-- FORWARD_DATA_READ_DONE (R128): the oldest read in flight of a forward's bytes returns. -/
  | forwardDataReadDone (line : LineId)
  /-- DDR_WORD_CORRUPTED (R44): the aligned 8-byte word with this number becomes uncorrectable. -/
  | ddrWordCorrupted (word : BitVec 27)
  /-- FINE_COUNTER_TICK (R142): one microsecond of the part's time base passes. -/
  | fineCounterTick
  deriving DecidableEq, Repr

end Sys2Proof
end

