-- ==== Sys2Proof/Decode.lean ====
section
/-! DEFINITION. The opcode table gives no row any bits (every "fields" of spec/opcode_table.json is empty and no row has "fixed"), so
no word spells a command. -/

namespace Sys2Proof

/-- The command a word spells by the table's bits: none, for the table gives no bits. -/
def decodeTableWord (_nbits _w : Nat) : Option Instr := none

end Sys2Proof
end

