-- ==== Sys2Proof/Config.lean ====
section
/-! DEFINITION. The constants the spec fixes for every BLX-440, and the one value it leaves open: what the DDR
memory returns for a byte of an uncorrectable word (R60). -/

namespace Sys2Proof.Config

/-- Entries of a packet index (R45). -/
def indexLimit : Nat := 2048

/-- The largest outstanding credit and allowance of a line (R25). -/
def creditLimit : Nat := 1024

/-- Bytes of the DDR memory (R43). -/
def ddrSize : Nat := 2 ^ 30

/-- Bytes of a staging buffer (R126). -/
def stagingSize : Nat := 4096

/-- The longest read of packet bytes (R126, R128). -/
def readSize : Nat := 512

/-- Records of the longest chain (R117) and fill records of the longest delivery (R105). -/
def recordLimit : Nat := 16

/-- The granularity of a region's base and size (R64). -/
def regionUnit : Nat := 65536

/-- The largest region (R64). -/
def regionLimit : Nat := 256 * 1024 * 1024

/-- The silence timer, in microseconds (R14). -/
def silenceTime : Nat := 20

/-- The handshake timer, in microseconds (R13). -/
def handshakeTime : Nat := 2000

/-- The quiet timer, in microseconds (R19). -/
def quietTime : Nat := 100

/-- The largest value of the 16-bit lengths, which saturate there (R46). -/
def lengthLimit : Nat := 65535

/-- The byte the DDR memory returns for the k-th byte ever read from an uncorrectable word: a FREE VALUE (log entry 1).
R60 hands such bytes to the reader "as the memory returned them", and R109 says they are not to be relied on. -/
opaque faultyByte (k : Nat) : Byte

end Sys2Proof.Config
end

