-- ==== Sys2Proof/Machine/State.lean ====
section
/-! DEFINITION. The state of the BLX-440 as plain data: every piece of state the chapters' reset tables name
(R6, R25, R42, R68, R95, R116, R141, R156, R177), the DDR memory (R43, R44), what the part has put on the host bus and on
the lines, and the queue of commands. `State.reset` is the part after power-on. -/

namespace Sys2Proof.Machine

/-! ## Four of a kind -/

/-- One value for each of the four lines. -/
structure PerLine (α : Type) where
  l0 : α
  l1 : α
  l2 : α
  l3 : α
  deriving DecidableEq, Repr

/-- The value of one line. -/
def PerLine.get {α : Type} (p : PerLine α) : LineId → α
  | .l0 => p.l0
  | .l1 => p.l1
  | .l2 => p.l2
  | .l3 => p.l3

/-- Change the value of one line. -/
def PerLine.upd {α : Type} (p : PerLine α) (n : LineId) (f : α → α) : PerLine α :=
  match n with
  | .l0 => { p with l0 := f p.l0 }
  | .l1 => { p with l1 := f p.l1 }
  | .l2 => { p with l2 := f p.l2 }
  | .l3 => { p with l3 := f p.l3 }

/-- The same value for every line. -/
def PerLine.all {α : Type} (a : α) : PerLine α := ⟨a, a, a, a⟩

/-! ## The line port and its credit (R6, R25) -/

/-- The connection state of a line (R6). -/
inductive LineState where
  | off
  | listen
  | connect
  | run
  | recover
  deriving DecidableEq, Repr

/-- Whether the part opens the connection (R10). -/
inductive Initiative where
  | passive
  | active
  deriving DecidableEq, Repr

/-- The line causes of 10.1: the line errors (R18), NONE, and STOPPED (R22). -/
inductive LineCause where
  | none
  | handshakeTimeout
  | silence
  | codeError
  | remoteRestart
  | creditViolation
  | grantOverflow
  | stopped
  deriving DecidableEq, Repr

/-- How grants are bounded and the store protected (R25, R42). -/
inductive Policy where
  | lossless
  | dropNew
  deriving DecidableEq, Repr

/-- The line port (R6). A timer is `none` when stopped and otherwise the microseconds remaining. -/
structure LinePort where
  state : LineState
  configured : Bool
  initiative : Initiative
  autoRestart : Bool
  /-- Mbit/s. -/
  rate : Nat
  markOut : Bool
  silence : Option Nat
  handshake : Option Nat
  quiet : Option Nat
  aligned : Bool
  markPending : Bool
  readyDue : Bool
  lastCause : LineCause
  errors : BitVec 32
  markSlot : Option Byte
  /-- The value of a MARK already sent, kept for the next character (R17, case 1). -/
  markValue : Option Byte
  deriving DecidableEq, Repr

/-- The credit logic (R25). Its policy is the store's field `policy`: both are set together (R42). -/
structure Credit where
  outstanding : Nat
  allowance : Nat
  /-- `some n` is the offer GRANT(n). -/
  offer : Option Nat
  deriving DecidableEq, Repr

/-! ## The inbound store and its index (R42, R46) -/

/-- How a packet was closed (R46); `good` is the end kind END. -/
inductive EndKind where
  | good
  | abandon
  | linkLost
  deriving DecidableEq, Repr

/-- Whether the packet of an entry is still arriving (R46). -/
inductive EntryState where
  | arriving
  | complete
  deriving DecidableEq, Repr

/-- What a forward-table entry does with a packet (R69). -/
inductive Action where
  | deliver
  | forward
  | copy
  | discard
  deriving DecidableEq, Repr

/-- A forward-table entry (R69), and the disposition recorded from it (R74). -/
structure Disposition where
  action : Action
  destination : LineId
  strip : Bool
  deriving DecidableEq, Repr

/-- Why a leg failed (R77). -/
inductive LegCause where
  | expired
  | flushed
  | linkLost
  | storeFault
  deriving DecidableEq, Repr

/-- The state of a leg (R77). -/
inductive Leg where
  | absent
  | pending
  | active
  | done
  | failed (cause : LegCause)
  deriving DecidableEq, Repr

/-- The time value at a packet's first character (R48). -/
structure Stamp where
  epoch : BitVec 8
  fine : BitVec 24
  deriving DecidableEq, Repr

/-- An entry of the packet index (R46). -/
structure IndexEntry where
  sequence : BitVec 16
  state : EntryState
  offset : Nat
  stored : Nat
  received : Nat
  tag : Option Byte
  truncated : Bool
  endKind : Option EndKind
  stamp : Stamp
  disposition : Option Disposition
  delivery : Leg
  forward : Leg
  deriving DecidableEq, Repr

/-- The state of a store's intake (R42). -/
inductive Intake where
  | between
  | filling
  | shedding
  deriving DecidableEq, Repr

/-- An inbound store (R42); the index is oldest first. -/
structure Store where
  base : Nat
  size : Nat
  maxLength : Nat
  policy : Policy
  writeOffset : Nat
  readOffset : Nat
  occupied : Nat
  index : List IndexEntry
  intake : Intake
  sequence : BitVec 16
  received : BitVec 32
  truncated : BitVec 32
  abandoned : BitVec 32
  dropped : BitVec 32
  deriving DecidableEq, Repr

/-- The DDR memory (R43, R44): the bytes that are not zero, by rising address; the numbers of the uncorrectable
words, rising; and how many bytes of uncorrectable words have been read, the MODEL's own counter for the free
values of `Config.faultyByte` (log entry 1). -/
structure Ddr where
  cells : List Host.Cell
  badWords : List Nat
  faultyReads : Nat
  deriving DecidableEq, Repr

/-! ## The head engine (R68) -/

/-- What becomes of bad packets (R72). -/
inductive BadRule where
  | keep
  | drop
  deriving DecidableEq, Repr

/-- The head engine (R68). The head timer is in microseconds; `flush` is the count of packets that the flush in
progress has discarded so far. -/
structure HeadEngine where
  table : Vector Disposition 257
  badRule : BadRule
  /-- Milliseconds; 0 is no limit. -/
  limit : Nat
  hold : Bool
  timer : Option Nat
  expired : Bool
  flush : Option (BitVec 32)
  discardedCount : BitVec 32
  expiredCount : BitVec 32
  deriving DecidableEq, Repr

/-! ## The delivery engine (R95) -/

/-- The state of a delivery engine (R95). -/
inductive DeliveryState where
  | idle
  | slotWait
  | recordWait
  | spareWait
  | fetch
  | write
  | post
  deriving DecidableEq, Repr

/-- A fill record taken (R95, R96). -/
structure FillRecord where
  index : BitVec 16
  address : HostAddress
  size : BitVec 32
  cookie : BitVec 32
  deriving DecidableEq, Repr

/-- The record being filled and the bytes written into it (R95). -/
structure CurrentRecord where
  record : FillRecord
  written : Nat
  deriving DecidableEq, Repr

/-- A delivery engine (R95). `leg` says whether it has taken up the delivery leg of its line's head. -/
structure Delivery where
  state : DeliveryState
  leg : Bool
  packetSlot : Bool
  spareSlot : Bool
  toDeliver : Nat
  delivered : Nat
  records : List FillRecord
  current : Option CurrentRecord
  faultPosition : Option Nat
  short : Bool
  partialEnd : Bool
  deriving DecidableEq, Repr

/-! ## The outbound engine (R116) -/

/-- The state of the taking of send records (R116). -/
inductive FetchState where
  | waitRecord
  | fetch
  | slotWait
  | holding
  deriving DecidableEq, Repr

/-- A send record taken (R116, R117). -/
structure SendRecord where
  index : BitVec 16
  address : HostAddress
  length : BitVec 16
  continues : Bool
  abandon : Bool
  cookie : BitVec 32
  deriving DecidableEq, Repr

/-- How a whole chain was judged (R119); `cancelled` is a chain assembled by a cancel, which is not judged (R139). -/
inductive Verdict where
  | valid
  | invalid
  | cancelled
  deriving DecidableEq, Repr

/-- A whole chain (R119). -/
structure Chain where
  records : List SendRecord
  verdict : Verdict
  deriving DecidableEq, Repr

/-- The packet in transmission on a line (R116). -/
inductive Transmission where
  | none
  | host (chain : Chain)
  | forward (source : LineId) (sequence : BitVec 16) (strip : Bool)
  deriving DecidableEq, Repr

/-- A failure taken during a transmission (R116). -/
inductive Failure where
  | none
  | hostReadError
  | storeFault
  deriving DecidableEq, Repr

/-- A requester at a line's arbiter (R122): the line's ready chain, or the head of a store. -/
inductive Winner where
  | host
  | store (n : LineId)
  deriving DecidableEq, Repr

/-- A run of packet bytes still to be read (R126, R128): from a host address, or from a region offset. -/
structure Segment where
  start : Nat
  length : Nat
  deriving DecidableEq, Repr

/-- A read of packet bytes that has been issued, and its bytes once it has returned (R126). -/
structure StagedRead where
  start : Nat
  length : Nat
  data : Option (List Byte)
  deriving DecidableEq, Repr

/-- The staging buffer (R116): the bytes at hand, the reads that follow them in packet order, and the runs of
the packet for which no read has been issued. -/
structure Staging where
  bytes : List Byte
  reads : List StagedRead
  todo : List Segment
  deriving DecidableEq, Repr

/-- A SEND_CANCEL in progress (R116, R138). -/
structure Cancel where
  limit : BitVec 16
  chains : BitVec 32
  records : BitVec 32
  deriving DecidableEq, Repr

/-- An outbound engine (R116). `waiting` is the judged chain that waits for its slot in SLOT_WAIT. -/
structure Outbound where
  fetch : FetchState
  assembly : List SendRecord
  waiting : Option Chain
  held : Option Chain
  transmission : Transmission
  bytesSent : Nat
  staging : Staging
  failure : Failure
  lastWinner : Winner
  cancel : Option Cancel
  deriving DecidableEq, Repr

/-! ## The time unit (R141) -/

/-- What moves the epoch (R143). -/
inductive TimeSource where
  | none
  | internal
  | line (n : LineId)
  deriving DecidableEq, Repr

/-- The time unit (R141). The period is in milliseconds, its timer in microseconds. -/
structure TimeUnit where
  epoch : BitVec 8
  fine : BitVec 24
  source : TimeSource
  period : Nat
  timer : Option Nat
  notices : Bool
  skew : BitVec 32
  deriving DecidableEq, Repr

/-! ## The ring unit (R156) -/

/-- The part state (R155). -/
inductive PartState where
  | halted
  | loading
  | running
  | faulted
  deriving DecidableEq, Repr

/-- The fault cause (R155). -/
inductive FaultCause where
  | none
  | anchorRead
  | anchorInvalid
  | ringRead
  deriving DecidableEq, Repr

/-- The part state, the anchor address, what STATUS shows of a fault, and the progress block's address (R156). -/
structure PartUnit where
  state : PartState
  anchor : HostAddress
  cause : FaultCause
  detail : BitVec 8
  progress : HostAddress
  deriving DecidableEq, Repr

/-- An entry of the ring table (R156). -/
structure Ring where
  base : HostAddress
  /-- Entries; 0 before the anchor is loaded. -/
  size : Nat
  vector : BitVec 8
  producer : BitVec 16
  consumer : BitVec 16
  deriving DecidableEq, Repr

/-- The name of a ring (R163). -/
inductive RingId where
  | command
  | notice
  | send (n : LineId)
  | fill (n : LineId)
  | completion (n : LineId)
  deriving DecidableEq, Repr

/-- The fourteen rings (R156). -/
structure RingTable where
  command : Ring
  notice : Ring
  send : PerLine Ring
  fill : PerLine Ring
  completion : PerLine Ring
  deriving DecidableEq, Repr

/-- A requester of slots on a completion ring (R171). -/
inductive Requester where
  | delivery
  | outbound
  deriving DecidableEq, Repr

/-- The slot accounting of a part-written ring (R156, R171, R173): the reserved slots, the arm flag, and the requests
that wait on a completion ring, the one lodged earliest first. -/
structure Slots where
  reserved : Nat
  armed : Bool
  waiting : List Requester
  deriving DecidableEq, Repr

/-- The slot accounting of the five part-written rings. -/
structure SlotTable where
  notice : Slots
  completion : PerLine Slots
  deriving DecidableEq, Repr

/-- Why a POST was rejected (R168). -/
inductive PostReason where
  | countRange
  | pastProducer
  | noRing
  deriving DecidableEq, Repr

/-- The unsolicited notices (R174), with the fields of 10.6. -/
inductive Notice where
  | linkState (line : LineId) (state : LineState) (cause : LineCause)
  /-- `sequence` is absent for INDEX_FULL and is the cut entry's for STORE_FULL (R57). -/
  | dropped (line : LineId) (sequence : Option (BitVec 16)) (count : BitVec 32)
  | headExpired (line : LineId) (sequence : BitVec 16) (tag : Option Byte) (delivery forward : Leg) (count : BitVec 32)
  | forwardCut (source destination : LineId) (sequence : BitVec 16) (tag : Option Byte) (bytesSent : BitVec 16)
  | storeFault (source destination : LineId) (sequence : BitVec 16) (tag : Option Byte) (bytesSent : BitVec 16)
      (offset : BitVec 32)
  /-- `source` is absent for INTERNAL (R150). -/
  | mark (source : Option LineId) (epoch previous : BitVec 8) (skewed : Bool) (skew : BitVec 32)
  | postRejected (ring : BitVec 4) (reason : PostReason) (index : BitVec 16) (arm : Bool) (producer consumer : BitVec 16)
  deriving DecidableEq, Repr

/-- A notice held in the pending-notice set, with its merged count (R175). -/
structure HeldNotice where
  notice : Notice
  merged : BitVec 8
  deriving DecidableEq, Repr

/-! ## The command unit (R177) -/

/-- The state of the command unit (R177). -/
inductive UnitState where
  | idle
  | slotWait
  | fetch
  | execute
  deriving DecidableEq, Repr

/-- What a command waits for (R177). -/
inductive Wait where
  | none
  | flush (n : LineId)
  | cancel (n : LineId)
  deriving DecidableEq, Repr

/-- The command taken, with the command ring index at which it stood (R177, R178). -/
structure CommandEntry where
  index : BitVec 16
  entry : Record
  deriving DecidableEq, Repr

/-- The command unit (R177). -/
structure CommandUnit where
  state : UnitState
  slot : Bool
  current : Option CommandEntry
  wait : Wait
  deriving DecidableEq, Repr

/-! ## What leaves the part -/

/-- An operation the part issues on the host bus, in the order issued (R111, R172). -/
inductive HostOp where
  /-- A 32-byte entry written into a slot of a part-written ring. -/
  | entry (address : HostAddress) (bytes : Record)
  /-- The whole progress block written with zeros (R159). -/
  | progressBlock (address : HostAddress)
  /-- One index written into the progress block (R170). -/
  | progressIndex (address : HostAddress) (value : BitVec 16)
  /-- Packet bytes written into a fill buffer (R104). -/
  | buffer (address : HostAddress) (bytes : List Byte)
  /-- A message-signalled interrupt (R173). -/
  | interrupt (vector : BitVec 8)
  /-- A read of host memory (R126, R158, R169). -/
  | read (address : HostAddress) (length : Nat)
  deriving DecidableEq, Repr

/-! ## The machine -/

/-- The state of the part. `bus` is what it has issued on the host bus and `wires` what each transmitter has sent, both
oldest first; `pending` is the queue of commands that wait. These three are the model's own (log entries 2 and 3). -/
structure State where
  ports : PerLine LinePort
  credits : PerLine Credit
  stores : PerLine Store
  heads : PerLine HeadEngine
  deliveries : PerLine Delivery
  outbounds : PerLine Outbound
  ddr : Ddr
  time : TimeUnit
  part : PartUnit
  rings : RingTable
  slots : SlotTable
  held : List HeldNotice
  command : CommandUnit
  bus : List HostOp
  wires : PerLine (List Character)
  pending : List Instr
  deriving DecidableEq, Repr

/-- Why the part stops. No operation of the table stops the part: what the manual calls a fault is the part state
FAULTED (R161), which is a next state. -/
inductive Fault where
  deriving DecidableEq, Repr

/-- Why the model gives a command no meaning. -/
inductive Refusal where
  /-- Raised by `exec` for a command that has no meaning yet; safe, since the model then claims nothing. No arm of this
  model raises it. -/
  | notModelled (mnemonic : String)
  deriving DecidableEq, Repr

/-! ## The values after reset -/

/-- The line port after a part reset (R6). -/
def LinePort.reset : LinePort where
  state := .off
  configured := false
  initiative := .passive
  autoRestart := false
  rate := 10
  markOut := false
  silence := none
  handshake := none
  quiet := none
  aligned := false
  markPending := false
  readyDue := false
  lastCause := .none
  errors := 0
  markSlot := none
  markValue := none

/-- The credit logic after a part reset (R25). -/
def Credit.reset : Credit := ⟨0, 0, none⟩

/-- The store after a part reset (R42). -/
def Store.reset : Store where
  base := 0
  size := 0
  maxLength := 65535
  policy := .lossless
  writeOffset := 0
  readOffset := 0
  occupied := 0
  index := []
  intake := .between
  sequence := 0
  received := 0
  truncated := 0
  abandoned := 0
  dropped := 0

/-- The forward-table entry DELIVER, destination L0, strip no (R68). -/
def Disposition.reset : Disposition := ⟨.deliver, .l0, false⟩

/-- The head engine after a part reset (R68). -/
def HeadEngine.reset : HeadEngine where
  table := Vector.replicate 257 Disposition.reset
  badRule := .keep
  limit := 0
  hold := false
  timer := none
  expired := false
  flush := none
  discardedCount := 0
  expiredCount := 0

/-- The delivery engine after a part reset (R95). -/
def Delivery.reset : Delivery where
  state := .idle
  leg := false
  packetSlot := false
  spareSlot := false
  toDeliver := 0
  delivered := 0
  records := []
  current := none
  faultPosition := none
  short := false
  partialEnd := false

/-- The staging buffer after a part reset (R116). -/
def Staging.empty : Staging := ⟨[], [], []⟩

/-- The outbound engine after a part reset (R116). -/
def Outbound.reset : Outbound where
  fetch := .waitRecord
  assembly := []
  waiting := none
  held := none
  transmission := .none
  bytesSent := 0
  staging := Staging.empty
  failure := .none
  lastWinner := .store .l3
  cancel := none

/-- The time unit after a part reset (R141). -/
def TimeUnit.reset : TimeUnit where
  epoch := 0
  fine := 0
  source := .none
  period := 1000
  timer := none
  notices := false
  skew := 0

/-- The ring unit's part state, anchor and fault after a part reset (R156). -/
def PartUnit.reset : PartUnit := ⟨.halted, 0, .none, 0, 0⟩

/-- A ring after a part reset (R156). -/
def Ring.reset : Ring := ⟨0, 0, 0, 0, 0⟩

/-- The ring table after a part reset (R156). -/
def RingTable.reset : RingTable :=
  ⟨Ring.reset, Ring.reset, PerLine.all Ring.reset, PerLine.all Ring.reset, PerLine.all Ring.reset⟩

/-- The slot accounting of one ring after a part reset (R156). -/
def Slots.reset : Slots := ⟨0, false, []⟩

/-- The slot accounting after a part reset (R156). -/
def SlotTable.reset : SlotTable := ⟨Slots.reset, PerLine.all Slots.reset⟩

/-- The command unit after a part reset (R177). -/
def CommandUnit.reset : CommandUnit := ⟨.idle, false, none, .none⟩

/-- The part after power-on: every block at its reset values (R162), the DDR memory sound (R44) and, as the model's choice,
with no byte listed (log entry 4), and nothing sent or queued. -/
def State.reset : State where
  ports := PerLine.all LinePort.reset
  credits := PerLine.all Credit.reset
  stores := PerLine.all Store.reset
  heads := PerLine.all HeadEngine.reset
  deliveries := PerLine.all Delivery.reset
  outbounds := PerLine.all Outbound.reset
  ddr := ⟨[], [], 0⟩
  time := TimeUnit.reset
  part := PartUnit.reset
  rings := RingTable.reset
  slots := SlotTable.reset
  held := []
  command := CommandUnit.reset
  bus := []
  wires := PerLine.all []
  pending := []

end Sys2Proof.Machine
end

