-- ==== Sys2Proof/Machine/Operands.lean ====
section
/-! DEFINITION. The forms of what the part reads, as chapter 10 lays them out: VPL characters (10.7), register words
(10.2), the anchor record (10.3), send records, fill records and command entries (10.4), and forward-table entries (10.5).
Fields marked "not used" are not looked at (R196). -/

namespace Sys2Proof.Machine

/-! ## VPL characters -/

/-- The control symbols (R2); `grant n` is GRANT(n), and `close` is END. -/
inductive Symbol where
  | null
  | hello
  | ready
  | grant (n : Nat)
  | close
  | abandon
  | mark
  deriving DecidableEq, Repr

/-- What the receive decoder makes of a character before it looks at MARK_PENDING (R3). -/
inductive Received where
  | failure
  | data (value : Byte)
  | symbol (s : Symbol)
  deriving DecidableEq, Repr

/-- The kind bit (R1): set for a control character. -/
def charKind (c : Character) : Bool := c.getLsbD 0

/-- The eight value bits (R1). -/
def charValue (c : Character) : Byte := c.extractLsb' 1 8

/-- Whether the count of ones among all ten bits is odd (R1). -/
def charParityOdd (c : Character) : Bool :=
  (List.range 10).foldl (fun odd i => odd ^^ c.getLsbD i) false

/-- The symbol of a control value, if it is one of the codes of R2 (10.7). -/
def symbolOfCode (v : Byte) : Option Symbol :=
  if v = 0x0F then some .null
  else if v = 0x3C then some .hello
  else if v = 0x5A then some .ready
  else if v.toNat / 8 = 0x10 then some (.grant (v.toNat % 8 + 1))
  else if v = 0xB4 then some .mark
  else if v = 0xD2 then some .abandon
  else if v = 0xE1 then some .close
  else none

/-- The code of a symbol (10.7). -/
def symbolCode : Symbol → Byte
  | .null => 0x0F
  | .hello => 0x3C
  | .ready => 0x5A
  | .grant n => BitVec.ofNat 8 (0x80 + (n - 1) % 8)
  | .mark => 0xB4
  | .abandon => 0xD2
  | .close => 0xE1

/-- The decoder's first two checks (R3): parity, and the code of a control character. -/
def decodeCharacter (c : Character) : Received :=
  if charParityOdd c then
    if charKind c then
      match symbolOfCode (charValue c) with
      | some s => .symbol s
      | none => .failure
    else .data (charValue c)
  else .failure

/-- A well-formed character of a kind and a value, with the parity computed (R1). -/
def makeCharacter (control : Bool) (v : Byte) : Character :=
  let low : BitVec 9 := v ++ BitVec.ofBool control
  let odd := (List.range 9).foldl (fun odd i => odd ^^ low.getLsbD i) false
  BitVec.ofBool (!odd) ++ low

/-- The data character of a byte. -/
def dataCharacter (v : Byte) : Character := makeCharacter false v

/-- The control character of a symbol. -/
def symbolCharacter (s : Symbol) : Character := makeCharacter true (symbolCode s)

/-! ## Lines and rings by number -/

/-- The number of a line. -/
def lineNumber : LineId → Nat
  | .l0 => 0
  | .l1 => 1
  | .l2 => 2
  | .l3 => 3

/-- The line with a number, for 0 to 3. -/
def lineOfNumber : Nat → Option LineId
  | 0 => some .l0
  | 1 => some .l1
  | 2 => some .l2
  | 3 => some .l3
  | _ => none

/-- The line of a two-bit field (10.5). -/
def lineOfBits (b : BitVec 2) : LineId := (lineOfNumber b.toNat).getD .l0

/-- The four lines, ascending. -/
def allLines : List LineId := [.l0, .l1, .l2, .l3]

/-- The number of a ring (R163). -/
def ringNumber : RingId → Nat
  | .command => 0
  | .notice => 1
  | .send n => 2 + lineNumber n
  | .fill n => 6 + lineNumber n
  | .completion n => 10 + lineNumber n

/-- The rings by ascending number (R163). -/
def allRings : List RingId :=
  [.command, .notice] ++ allLines.map .send ++ allLines.map .fill ++ allLines.map .completion

/-- The ring with a number, for 0 to 13 (R163). -/
def ringOfNumber (k : Nat) : Option RingId := allRings[k]?

/-- A part-written ring among the fourteen. -/
def partRingId : PartRing → RingId
  | .notice => .notice
  | .completion n => .completion n

/-- The part-written ring that a ring is, if the part writes it (R163). -/
def partRingOf : RingId → Option PartRing
  | .notice => some .notice
  | .completion n => some (.completion n)
  | .command => none
  | .send _ => none
  | .fill _ => none

/-! ## Register words (10.2) -/

/-- The ENABLE request of a CONTROL word. -/
def controlEnable (w : BitVec 32) : Bool := w.getLsbD 0

/-- The RESET request of a CONTROL word. -/
def controlReset (w : BitVec 32) : Bool := w.getLsbD 1

/-- The index of a POST word. -/
def postIndex (w : BitVec 32) : BitVec 16 := w.extractLsb' 0 16

/-- The ring-number field of a POST word. -/
def postRingField (w : BitVec 32) : BitVec 4 := w.extractLsb' 16 4

/-- The arm request of a POST word. -/
def postArmRequest (w : BitVec 32) : Bool := w.getLsbD 20

/-- The ring a POST word names, for 0 to 13 (R165). -/
def postRing (w : BitVec 32) : Option RingId := ringOfNumber (postRingField w).toNat

/-- A 32-bit register after a write of the byte lanes marked (R154). -/
def mergeLanes (lanes : BitVec 4) (old new : BitVec 32) : BitVec 32 :=
  let part (k : Nat) : BitVec 8 := if lanes.getLsbD k then new.extractLsb' (8 * k) 8 else old.extractLsb' (8 * k) 8
  part 3 ++ part 2 ++ part 1 ++ part 0

/-! ## Bytes of records -/

/-- The byte at an offset of a record. -/
def recordByte (r : Record) (offset : Nat) : Byte := r.extractLsb' (8 * offset) 8

/-- The 16-bit field at an offset of a record. -/
def recordU16 (r : Record) (offset : Nat) : BitVec 16 := r.extractLsb' (8 * offset) 16

/-- The 32-bit field at an offset of a record. -/
def recordU32 (r : Record) (offset : Nat) : BitVec 32 := r.extractLsb' (8 * offset) 32

/-- The 64-bit field at an offset of a record. -/
def recordU64 (r : Record) (offset : Nat) : BitVec 64 := r.extractLsb' (8 * offset) 64

/-- The fill record at a ring index (10.4). -/
def fillRecordOf (index : BitVec 16) (r : Record) : FillRecord :=
  ⟨index, recordU64 r 0, recordU32 r 8, recordU32 r 12⟩

/-- The size check of a fill record (R102): set when it fails. -/
def sizeCheckFails (f : FillRecord) : Bool :=
  f.size.toNat == 0 || f.size.toNat % 8 != 0 || decide (65536 < f.size.toNat)

/-- The alignment check of a fill record (R102): set when it fails. -/
def alignmentCheckFails (f : FillRecord) : Bool := f.address.toNat % 8 != 0

/-- The send record at a ring index (10.4). -/
def sendRecordOf (index : BitVec 16) (r : Record) : SendRecord where
  index := index
  address := recordU64 r 0
  length := recordU16 r 8
  continues := r.getLsbD 80
  abandon := r.getLsbD 81
  cookie := recordU32 r 12

/-! ## The anchor record (10.3) -/

/-- The base field of a ring's descriptor. -/
def anchorBase (a : AnchorRecord) (ring : RingId) : HostAddress := a.extractLsb' (128 * ringNumber ring) 64

/-- The size exponent of a ring's descriptor. -/
def anchorExponent (a : AnchorRecord) (ring : RingId) : Byte := a.extractLsb' (128 * ringNumber ring + 64) 8

/-- The vector of a ring's descriptor. -/
def anchorVector (a : AnchorRecord) (ring : RingId) : Byte := a.extractLsb' (128 * ringNumber ring + 72) 8

/-- The progress block address. -/
def anchorProgress (a : AnchorRecord) : HostAddress := a.extractLsb' (8 * 0xE0) 64

/-- The format field. -/
def anchorFormat (a : AnchorRecord) : BitVec 16 := a.extractLsb' (8 * 0xE8) 16

/-- Whether a ring's descriptor passes check 2 of R159. -/
def anchorRingGood (a : AnchorRecord) (ring : RingId) : Bool :=
  decide (3 ≤ (anchorExponent a ring).toNat) && decide ((anchorExponent a ring).toNat ≤ 12)
    && (anchorBase a ring).toNat != 0 && (anchorBase a ring).toNat % 64 == 0
    && decide ((anchorVector a ring).toNat ≤ 31)

/-- The ring a good descriptor describes, its indices 0 (R159). -/
def anchorRing (a : AnchorRecord) (ring : RingId) : Ring :=
  ⟨anchorBase a ring, 2 ^ (anchorExponent a ring).toNat, anchorVector a ring, 0, 0⟩

/-! ## Forward-table entries (10.5) -/

/-- The action of a two-bit code. -/
def actionOfBits (b : BitVec 2) : Action :=
  if b = 0 then .deliver else if b = 1 then .forward else if b = 2 then .copy else .discard

/-- The code of an action. -/
def actionBits : Action → BitVec 2
  | .deliver => 0
  | .forward => 1
  | .copy => 2
  | .discard => 3

/-- The forward-table entry of a byte, its bits 7..5 ignored (R196). -/
def tableEntryOf (b : Byte) : Disposition :=
  ⟨actionOfBits (b.extractLsb' 0 2), lineOfBits (b.extractLsb' 2 2), b.getLsbD 4⟩

/-- The byte of a forward-table entry, its bits 7..5 clear (R196). -/
def tableEntryByte (d : Disposition) : Byte :=
  BitVec.ofNat 3 0 ++ BitVec.ofBool d.strip ++ BitVec.ofNat 2 (lineNumber d.destination) ++ actionBits d.action

/-! ## Command entries (10.4) -/

/-- The opcode byte of a command entry. -/
def opcode (e : Record) : Byte := recordByte e 0

/-- The line of a command entry, if its line byte is 0 to 3. -/
def commandLine (e : Record) : Option LineId := lineOfNumber (recordByte e 1).toNat

/-- The ten opcodes (10.4). -/
inductive CommandKind where
  | linkConfigure
  | linkStart
  | linkStop
  | linkFlush
  | linkHold
  | sendCancel
  | tableWrite
  | tableRead
  | timeSet
  | queryLink
  deriving DecidableEq, Repr

/-- The command of an opcode (10.4). -/
def commandKind (op : Byte) : Option CommandKind :=
  if op = 0x01 then some .linkConfigure
  else if op = 0x02 then some .linkStart
  else if op = 0x03 then some .linkStop
  else if op = 0x04 then some .linkFlush
  else if op = 0x05 then some .linkHold
  else if op = 0x06 then some .sendCancel
  else if op = 0x07 then some .tableWrite
  else if op = 0x08 then some .tableRead
  else if op = 0x09 then some .timeSet
  else if op = 0x0A then some .queryLink
  else none

/-- Whether a command carries a line (R179): every one but TIME_SET. -/
def carriesLine (k : CommandKind) : Bool := k != .timeSet

/-- LINK_CONFIGURE: region base in bytes. -/
def configBase (e : Record) : Nat := (recordU32 e 4).toNat
/-- LINK_CONFIGURE: region size in bytes. -/
def configSize (e : Record) : Nat := (recordU32 e 8).toNat
/-- LINK_CONFIGURE: maximum packet length. -/
def configMaxLength (e : Record) : Nat := (recordU16 e 12).toNat
/-- LINK_CONFIGURE: head limit in milliseconds. -/
def configLimit (e : Record) : Nat := (recordU16 e 14).toNat
/-- LINK_CONFIGURE: line rate in Mbit/s. -/
def configRate (e : Record) : Nat := (recordU16 e 16).toNat
/-- LINK_CONFIGURE: policy. -/
def configPolicy (e : Record) : Policy := if recordByte e 18 = 0 then .lossless else .dropNew
/-- LINK_CONFIGURE: bad-packet rule. -/
def configBadRule (e : Record) : BadRule := if recordByte e 19 = 0 then .keep else .drop
/-- LINK_CONFIGURE: initiative. -/
def configInitiative (e : Record) : Initiative := if recordByte e 20 = 0 then .passive else .active
/-- LINK_CONFIGURE: auto-restart. -/
def configAutoRestart (e : Record) : Bool := recordByte e 21 != 0
/-- LINK_CONFIGURE: mark-out. -/
def configMarkOut (e : Record) : Bool := recordByte e 22 != 0

/-- LINK_HOLD: hold on. -/
def holdValue (e : Record) : Bool := recordByte e 4 != 0

/-- TABLE_WRITE and TABLE_READ: first entry number. -/
def tableFirst (e : Record) : Nat := (recordU16 e 4).toNat
/-- TABLE_WRITE and TABLE_READ: count. -/
def tableCount (e : Record) : Nat := (recordByte e 6).toNat

/-- TIME_SET: epoch. -/
def timeEpoch (e : Record) : BitVec 8 := recordByte e 4

/-- A time source of its code (10.4). -/
def timeSourceOf (b : Byte) : Option TimeSource :=
  if b = 0 then some .none
  else if b = 1 then some .internal
  else if b = 4 then some (.line .l0)
  else if b = 5 then some (.line .l1)
  else if b = 6 then some (.line .l2)
  else if b = 7 then some (.line .l3)
  else none

/-- The code of a time source (10.4). -/
def timeSourceCode : TimeSource → Byte
  | .none => 0
  | .internal => 1
  | .line n => BitVec.ofNat 8 (4 + lineNumber n)

/-- TIME_SET: source. -/
def timeSource (e : Record) : TimeSource := (timeSourceOf (recordByte e 5)).getD .none
/-- TIME_SET: period in milliseconds. -/
def timePeriod (e : Record) : Nat := (recordU16 e 6).toNat
/-- TIME_SET: mark-notice switch. -/
def timeNotices (e : Record) : Bool := recordByte e 8 != 0

/-- QUERY_LINK: whether the section is PACKETS rather than LINE. -/
def queryPackets (e : Record) : Bool := recordByte e 4 != 0
/-- QUERY_LINK: the clear flag. -/
def queryClear (e : Record) : Bool := recordByte e 5 != 0

/-- Whether a byte is one of the codes 0 and 1 of a choice of two (10.4). -/
def isChoice (b : Byte) : Bool := b == 0 || b == 1

end Sys2Proof.Machine
end

