-- ==== Sys2Proof/Machine/Flags.lean ====
section
/-! DEFINITION. The codes and layouts of what the part shows: the codes of 10.1, the register window as read (10.2), and
every entry the part writes (10.6). Bytes a layout does not give are 0 (R197). -/

namespace Sys2Proof.Machine

/-! ## Bytes -/

/-- A byte of a number below 256. -/
def byteOf (k : Nat) : Byte := BitVec.ofNat 8 k

/-- A flag as bit 0 of a byte. -/
def flagByte (b : Bool) : Byte := if b then 1 else 0

/-- The bytes of a 16-bit field, lowest first. -/
def le16 (v : BitVec 16) : List Byte := [v.extractLsb' 0 8, v.extractLsb' 8 8]

/-- The bytes of a 32-bit field, lowest first. -/
def le32 (v : BitVec 32) : List Byte :=
  [v.extractLsb' 0 8, v.extractLsb' 8 8, v.extractLsb' 16 8, v.extractLsb' 24 8]

/-- The bytes of a 64-bit field, lowest first. -/
def le64 (v : BitVec 64) : List Byte := le32 (v.extractLsb' 0 32) ++ le32 (v.extractLsb' 32 32)

/-- Bytes followed by zeros up to a length. -/
def padTo (k : Nat) (bytes : List Byte) : List Byte := bytes ++ List.replicate (k - bytes.length) 0

/-- The record of at most 32 bytes, the rest 0. -/
def recordOf (bytes : List Byte) : Record :=
  bytes.foldr (fun b rest => (rest <<< 8) ||| b.setWidth 256) 0

/-! ## Codes (10.1, 10.2) -/

/-- The line state codes. -/
def lineStateCode : LineState → Byte
  | .off => 0
  | .listen => 1
  | .connect => 2
  | .run => 3
  | .recover => 4

/-- The line cause codes. -/
def lineCauseCode : LineCause → Byte
  | .none => 0
  | .handshakeTimeout => 1
  | .silence => 2
  | .codeError => 3
  | .remoteRestart => 4
  | .creditViolation => 5
  | .grantOverflow => 6
  | .stopped => 7

/-- The end kind codes; NONE, for an absent end kind, is 3. -/
def endKindCode : Option EndKind → Byte
  | some .good => 0
  | some .abandon => 1
  | some .linkLost => 2
  | none => 3

/-- The leg state codes. -/
def legStateCode : Leg → Byte
  | .absent => 0
  | .pending => 1
  | .active => 2
  | .done => 3
  | .failed _ => 4

/-- The leg cause codes, 0 for a leg that did not fail. -/
def legCauseCode : Leg → Byte
  | .failed .expired => 1
  | .failed .flushed => 2
  | .failed .linkLost => 3
  | .failed .storeFault => 4
  | .absent => 0
  | .pending => 0
  | .active => 0
  | .done => 0

/-- The status of a COMMAND_DONE (R182). -/
inductive CommandStatus where
  | ok
  | unknownOpcode
  | badLine
  | badField
  | notConfigured
  | lineNotOff
  | lineRunning
  | storeNotEmpty
  | regionRange
  | regionOverlap
  deriving DecidableEq, Repr

/-- The command status codes. -/
def commandStatusCode : CommandStatus → Byte
  | .ok => 0
  | .unknownOpcode => 1
  | .badLine => 2
  | .badField => 3
  | .notConfigured => 4
  | .lineNotOff => 5
  | .lineRunning => 6
  | .storeNotEmpty => 7
  | .regionRange => 8
  | .regionOverlap => 9

/-- The status of a SENT entry (R136). -/
inductive SentStatus where
  | ok
  | linkLost
  | hostReadError
  | badChain
  | cancelled
  deriving DecidableEq, Repr

/-- The SENT status codes (10.6). -/
def sentStatusCode : SentStatus → Byte
  | .ok => 0
  | .linkLost => 1
  | .hostReadError => 2
  | .badChain => 3
  | .cancelled => 4

/-- The part state codes (10.2). -/
def partStateCode : PartState → BitVec 2
  | .halted => 0
  | .loading => 1
  | .running => 2
  | .faulted => 3

/-- The fault cause codes (10.2). -/
def faultCauseCode : FaultCause → BitVec 2
  | .none => 0
  | .anchorRead => 1
  | .anchorInvalid => 2
  | .ringRead => 3

/-- The word of a stamp (10.1). -/
def stampWord (s : Stamp) : BitVec 32 := s.epoch ++ s.fine

/-! ## The register window as read (R154, R155) -/

/-- The STATUS word. -/
def statusWord (p : PartUnit) : BitVec 32 :=
  BitVec.ofNat 16 0 ++ p.detail ++ BitVec.ofNat 4 0 ++ faultCauseCode p.cause ++ partStateCode p.state

/-- The value a register reads as (R154); reading changes nothing. -/
def readRegister (s : State) : WindowRegister → BitVec 32
  | .ident => 0x04400103
  | .control => 0
  | .status => statusWord s.part
  | .anchorLow => s.part.anchor.extractLsb' 0 32
  | .anchorHigh => s.part.anchor.extractLsb' 32 32
  | .post => 0

/-- The byte at a lane of a register (R154: a read of any width returns the addressed bytes). -/
def readRegisterByte (s : State) (r : WindowRegister) (lane : Nat) : Byte := (readRegister s r).extractLsb' (8 * lane) 8

/-! ## Completions (10.6) -/

/-- The fields of a DELIVERED entry (R110). -/
structure Delivered where
  line : LineId
  sequence : BitVec 16
  tag : Option Byte
  endKind : Option EndKind
  truncated : Bool
  stripped : Bool
  short : Bool
  expired : Bool
  faultPosition : Option Nat
  delivered : Nat
  received : Nat
  stamp : Stamp
  firstIndex : BitVec 16
  recordsUsed : Nat
  firstCookie : BitVec 32
  deriving DecidableEq, Repr

/-- The fields of a FILL_REJECTED entry (R103). -/
structure FillRejected where
  line : LineId
  record : FillRecord
  sequence : BitVec 16
  deriving DecidableEq, Repr

/-- The fields of a SENT entry (R136); an absent end kind is NONE. -/
structure Sent where
  line : LineId
  firstIndex : BitVec 16
  count : Nat
  lastCookie : BitVec 32
  bytesSent : Nat
  status : SentStatus
  endKind : Option EndKind
  deriving DecidableEq, Repr

/-- The fields of a COMMAND_DONE notice (R181). -/
structure CommandDone where
  line : Nat
  index : BitVec 16
  opcode : Byte
  status : CommandStatus
  result : List Byte
  deriving DecidableEq, Repr

/-- The flags byte of a DELIVERED entry (10.6). -/
def deliveredFlags (d : Delivered) : Byte :=
  BitVec.ofNat 2 0 ++ BitVec.ofBool d.tag.isSome ++ BitVec.ofBool d.faultPosition.isSome ++ BitVec.ofBool d.expired
    ++ BitVec.ofBool d.short ++ BitVec.ofBool d.stripped ++ BitVec.ofBool d.truncated

/-- The bytes of a DELIVERED entry. -/
def deliveredBytes (d : Delivered) : List Byte :=
  [0x01, byteOf (lineNumber d.line), 0, endKindCode d.endKind] ++ le16 d.sequence
    ++ [d.tag.getD 0, deliveredFlags d] ++ le16 (BitVec.ofNat 16 d.delivered) ++ le16 (BitVec.ofNat 16 d.received)
    ++ le16 d.firstIndex ++ [byteOf d.recordsUsed, 0] ++ le32 (stampWord d.stamp) ++ le32 d.firstCookie
    ++ le16 (BitVec.ofNat 16 (d.faultPosition.getD 0)) ++ List.replicate 6 0

/-- The check byte of a FILL_REJECTED entry (10.6). -/
def checkByte (f : FillRecord) : Byte :=
  BitVec.ofNat 6 0 ++ BitVec.ofBool (alignmentCheckFails f) ++ BitVec.ofBool (sizeCheckFails f)

/-- The bytes of a FILL_REJECTED entry. -/
def fillRejectedBytes (f : FillRejected) : List Byte :=
  [0x02, byteOf (lineNumber f.line), 0, checkByte f.record] ++ le16 f.record.index ++ le16 f.sequence
    ++ le32 f.record.size ++ le32 f.record.cookie ++ le64 f.record.address ++ List.replicate 8 0

/-- The bytes of a SENT entry. -/
def sentBytes (e : Sent) : List Byte :=
  [0x03, byteOf (lineNumber e.line), 0, sentStatusCode e.status] ++ le16 e.firstIndex
    ++ [byteOf e.count, endKindCode e.endKind] ++ le16 (BitVec.ofNat 16 e.bytesSent) ++ [0, 0] ++ le32 e.lastCookie
    ++ List.replicate 16 0

/-! ## Notices (10.6) -/

/-- The bytes of a COMMAND_DONE notice. -/
def commandDoneBytes (d : CommandDone) : List Byte :=
  [0x10, byteOf d.line, 0, commandStatusCode d.status] ++ le16 d.index ++ [d.opcode, 0] ++ padTo 24 d.result

/-- The POST_REJECTED reason codes (10.6). -/
def postReasonCode : PostReason → Byte
  | .countRange => 0
  | .pastProducer => 1
  | .noRing => 2

/-- The bytes of an unsolicited notice with its merged count. -/
def noticeBytes (n : Notice) (merged : BitVec 8) : List Byte :=
  match n with
  | .linkState line state cause =>
    [0x11, byteOf (lineNumber line), merged, lineStateCode state, lineCauseCode cause] ++ List.replicate 27 0
  | .dropped line sequence count =>
    [0x12, byteOf (lineNumber line), merged, flagByte sequence.isSome] ++ le16 (sequence.getD 0)
      ++ [flagByte sequence.isSome, 0] ++ le32 count ++ List.replicate 20 0
  | .headExpired line sequence tag delivery forward count =>
    [0x13, byteOf (lineNumber line), merged, 0] ++ le16 sequence ++ [tag.getD 0, flagByte tag.isSome]
      ++ [legStateCode delivery, legCauseCode delivery, legStateCode forward, legCauseCode forward]
      ++ le32 count ++ List.replicate 16 0
  | .forwardCut source destination sequence tag bytesSent =>
    [0x14, byteOf (lineNumber source), merged, byteOf (lineNumber destination)] ++ le16 sequence
      ++ [tag.getD 0, flagByte tag.isSome] ++ le16 bytesSent ++ List.replicate 22 0
  | .storeFault source destination sequence tag bytesSent offset =>
    [0x15, byteOf (lineNumber source), merged, byteOf (lineNumber destination)] ++ le16 sequence
      ++ [tag.getD 0, flagByte tag.isSome] ++ le16 bytesSent ++ [0, 0] ++ le32 offset ++ List.replicate 16 0
  | .mark source epoch previous skewed skew =>
    [0x16, byteOf ((source.map lineNumber).getD 0), merged, flagByte source.isSome, epoch, previous, flagByte skewed, 0]
      ++ le32 skew ++ List.replicate 20 0
  | .postRejected ring reason index arm producer consumer =>
    [0x17, ring.setWidth 8, merged, postReasonCode reason] ++ le16 index ++ [flagByte arm, 0] ++ le16 producer
      ++ le16 consumer ++ List.replicate 20 0

/-- The key of a notice in the pending-notice set (R175), numbered in the order of R176. -/
def noticeKey : Notice → Nat
  | .linkState line _ _ => lineNumber line
  | .dropped line _ _ => 4 + lineNumber line
  | .headExpired line _ _ _ _ _ => 8 + lineNumber line
  | .forwardCut source _ _ _ _ => 12 + lineNumber source
  | .storeFault source _ _ _ _ _ => 16 + lineNumber source
  | .mark source _ _ _ _ => 20 + (source.map lineNumber).getD 0
  | .postRejected ring _ _ _ _ _ => 24 + min ring.toNat 14

end Sys2Proof.Machine
end

