-- ==== Sys2Proof/Machine/Ops.lean ====
section
/-! DEFINITION. The named operations every block uses: reading and changing one block of one line, the DDR memory (3.1), the
rings, their slots and the notice writer (chapter 8), and how the command unit asks for a command and reports one
(R178, R181). -/

namespace Sys2Proof.Machine

/-! ## Blocks -/

/-- The line port of a line. -/
def State.port (s : State) (n : LineId) : LinePort := s.ports.get n
/-- The credit logic of a line. -/
def State.credit (s : State) (n : LineId) : Credit := s.credits.get n
/-- The inbound store of a line. -/
def State.store (s : State) (n : LineId) : Store := s.stores.get n
/-- The head engine of a line. -/
def State.head (s : State) (n : LineId) : HeadEngine := s.heads.get n
/-- The delivery engine of a line. -/
def State.delivery (s : State) (n : LineId) : Delivery := s.deliveries.get n
/-- The outbound engine of a line. -/
def State.outbound (s : State) (n : LineId) : Outbound := s.outbounds.get n
/-- What the transmitter of a line has sent. -/
def State.wire (s : State) (n : LineId) : List Character := s.wires.get n

/-- Change the line port of a line. -/
def updPort (n : LineId) (f : LinePort → LinePort) (s : State) : State := { s with ports := s.ports.upd n f }
/-- Change the credit logic of a line. -/
def updCredit (n : LineId) (f : Credit → Credit) (s : State) : State := { s with credits := s.credits.upd n f }
/-- Change the store of a line. -/
def updStore (n : LineId) (f : Store → Store) (s : State) : State := { s with stores := s.stores.upd n f }
/-- Change the head engine of a line. -/
def updHead (n : LineId) (f : HeadEngine → HeadEngine) (s : State) : State := { s with heads := s.heads.upd n f }
/-- Change the delivery engine of a line. -/
def updDelivery (n : LineId) (f : Delivery → Delivery) (s : State) : State :=
  { s with deliveries := s.deliveries.upd n f }
/-- Change the outbound engine of a line. -/
def updOutbound (n : LineId) (f : Outbound → Outbound) (s : State) : State :=
  { s with outbounds := s.outbounds.upd n f }
/-- Change the time unit. -/
def updTime (f : TimeUnit → TimeUnit) (s : State) : State := { s with time := f s.time }
/-- Change the part state and its registers. -/
def updPart (f : PartUnit → PartUnit) (s : State) : State := { s with part := f s.part }
/-- Change the command unit. -/
def updCommand (f : CommandUnit → CommandUnit) (s : State) : State := { s with command := f s.command }
/-- Change the DDR memory. -/
def updDdr (f : Ddr → Ddr) (s : State) : State := { s with ddr := f s.ddr }

/-- Replace the pending-notice set. -/
def setHeld (held : List HeldNotice) (s : State) : State := { s with held := held }

/-- Issue an operation on the host bus (R172). -/
def issue (op : HostOp) (s : State) : State := { s with bus := s.bus ++ [op] }

/-- Issue operations on the host bus, in order. -/
def issueAll (ops : List HostOp) (s : State) : State := { s with bus := s.bus ++ ops }

/-- Send a character on a line (R1). -/
def sendCharacter (n : LineId) (c : Character) (s : State) : State := { s with wires := s.wires.upd n (· ++ [c]) }

/-- What a step does in RUNNING alone: in every other part state nothing happens (R161, R165, R177). -/
def whenRunning (s : State) (t : State) : State := if s.part.state = .running then t else s

/-! ## The DDR memory (R43, R44) -/

/-- The byte at an address: what was last written there, and 0 for a byte nothing has written (log entry 4). -/
def cellRead : List Host.Cell → Nat → Byte
  | [], _ => 0
  | (a, b) :: rest, x => if x = a then b else if x < a then 0 else cellRead rest x

/-- Write a byte, keeping the addresses rising and listing no zero. -/
def cellWrite : List Host.Cell → Nat → Byte → List Host.Cell
  | [], x, v => if v = 0 then [] else [(x, v)]
  | (a, b) :: rest, x, v =>
    if x < a then (if v = 0 then (a, b) :: rest else (x, v) :: (a, b) :: rest)
    else if x = a then (if v = 0 then rest else (a, v) :: rest)
    else (a, b) :: cellWrite rest x v

/-- The canonical form of the byte list from an address on: addresses rising, no byte 0. -/
def cellsFrom : Nat → List Host.Cell → Bool
  | _, [] => true
  | low, (a, b) :: rest => decide (low ≤ a) && b != 0 && cellsFrom (a + 1) rest

/-- Add a number to a rising list. -/
def insertNumber : List Nat → Nat → List Nat
  | [], x => [x]
  | a :: rest, x => if x < a then x :: a :: rest else if x = a then a :: rest else a :: insertNumber rest x

/-- Whether a list of numbers rises from a number on. -/
def numbersFrom : Nat → List Nat → Bool
  | _, [] => true
  | low, a :: rest => decide (low ≤ a) && numbersFrom (a + 1) rest

/-- The canonical form of the DDR memory: bytes and uncorrectable words by rising number, no byte 0 listed, and nothing
beyond 1 GiB. -/
def Ddr.wf (d : Ddr) : Bool :=
  cellsFrom 0 d.cells && d.cells.all (fun c => decide (c.1 < Config.ddrSize))
    && numbersFrom 0 d.badWords && d.badWords.all (fun w => decide (w < Config.ddrSize / 8))

/-- Whether the word of an address is uncorrectable (R44). -/
def Ddr.bad (d : Ddr) (address : Nat) : Bool := d.badWords.contains (address / 8)

/-- Write a byte (R44): the word keeps its mark if it is uncorrectable. -/
def Ddr.write (d : Ddr) (address : Nat) (v : Byte) : Ddr := { d with cells := cellWrite d.cells address v }

/-- Mark a word uncorrectable (R44). -/
def Ddr.corrupt (d : Ddr) (word : Nat) : Ddr := { d with badWords := insertNumber d.badWords word }

/-- The bytes a read returns (R60): a byte of an uncorrectable word is a free value, the k-th ever read. -/
def ddrBytes (d : Ddr) : Nat → List Nat → List Byte
  | _, [] => []
  | k, a :: rest =>
    if d.bad a then Config.faultyByte k :: ddrBytes d (k + 1) rest else cellRead d.cells a :: ddrBytes d k rest

/-- The DDR address of a region offset, counted on past the region end and wrapping there (R43). -/
def Store.address (st : Store) (offset : Nat) : Nat := (st.base + offset % st.size) % Config.ddrSize

/-- The DDR addresses of a run of region offsets. -/
def Store.run (st : Store) (start length : Nat) : List Nat :=
  (List.range length).map (fun k => st.address (start + k))

/-- How many bytes of a run precede the first byte of an uncorrectable word, if the run meets one (R60). -/
def firstFault (d : Ddr) (addresses : List Nat) : Option Nat := addresses.findIdx? (fun a => d.bad a)

/-- Count the bytes of uncorrectable words that a read has returned (log entry 1). -/
def Ddr.noteRead (d : Ddr) (addresses : List Nat) : Ddr :=
  { d with faultyReads := d.faultyReads + (addresses.filter (fun a => d.bad a)).length }

/-- Free bytes of a store (R43). -/
def Store.freeBytes (st : Store) : Nat := st.size - st.occupied

/-- Free entries of a packet index (R45). -/
def Store.freeEntries (st : Store) : Nat := Config.indexLimit - st.index.length

/-! ## Rings (R163, R164) -/

/-- The entries a ring holds (R164). -/
def Ring.count (r : Ring) : Nat := (r.producer - r.consumer).toNat

/-- The host address of the slot an index names (R163, R164), reckoned modulo 2^64 (DESIGN CHOICE, log entry 32). -/
def Ring.slotAddress (r : Ring) (index : BitVec 16) : HostAddress :=
  r.base + BitVec.ofNat 64 (32 * (index.toNat % r.size))

/-- A ring of the table. -/
def RingTable.get (t : RingTable) : RingId → Ring
  | .command => t.command
  | .notice => t.notice
  | .send n => t.send.get n
  | .fill n => t.fill.get n
  | .completion n => t.completion.get n

/-- Change a ring of the table. -/
def RingTable.upd (t : RingTable) (r : RingId) (f : Ring → Ring) : RingTable :=
  match r with
  | .command => { t with command := f t.command }
  | .notice => { t with notice := f t.notice }
  | .send n => { t with send := t.send.upd n f }
  | .fill n => { t with fill := t.fill.upd n f }
  | .completion n => { t with completion := t.completion.upd n f }

/-- A ring. -/
def State.ring (s : State) (r : RingId) : Ring := s.rings.get r

/-- Change a ring. -/
def updRing (r : RingId) (f : Ring → Ring) (s : State) : State := { s with rings := s.rings.upd r f }

/-- The slot accounting of a part-written ring. -/
def SlotTable.get (t : SlotTable) : PartRing → Slots
  | .notice => t.notice
  | .completion n => t.completion.get n

/-- Change the slot accounting of a part-written ring. -/
def SlotTable.upd (t : SlotTable) (r : PartRing) (f : Slots → Slots) : SlotTable :=
  match r with
  | .notice => { t with notice := f t.notice }
  | .completion n => { t with completion := t.completion.upd n f }

/-- The slot accounting of a part-written ring. -/
def State.slot (s : State) (r : PartRing) : Slots := s.slots.get r

/-- Change the slot accounting of a part-written ring. -/
def updSlots (r : PartRing) (f : Slots → Slots) (s : State) : State := { s with slots := s.slots.upd r f }

/-- The index of a ring that the progress block shows (R170). -/
def shownIndex (r : RingId) (ring : Ring) : BitVec 16 :=
  match partRingOf r with
  | some _ => ring.producer
  | none => ring.consumer

/-- Write a ring's index into the progress block (R170). -/
def writeProgress (r : RingId) (s : State) : State :=
  issue (.progressIndex (s.part.progress + BitVec.ofNat 64 (2 * ringNumber r)) (shownIndex r (s.ring r))) s

/-- A record read returns: the consumer index rises by 1 and is written to the progress block (R169, R170). -/
def takeRecord (r : RingId) (s : State) : State :=
  writeProgress r (updRing r (fun g => { g with consumer := g.consumer + 1 }) s)

/-- Issue the read of the record at a ring's consumer index (R169). -/
def readRecord (r : RingId) (s : State) : State :=
  issue (.read ((s.ring r).slotAddress (s.ring r).consumer) 32) s

/-! ## Slots and entries of part-written rings (R171 to R173) -/

/-- The free slots of a part-written ring (R171). -/
def freeSlots (r : PartRing) (s : State) : Nat := (s.ring (partRingId r)).size - (s.ring (partRingId r)).count - (s.slot r).reserved

/-- Reserve a slot (R171). -/
def reserveSlot (r : PartRing) (s : State) : State := updSlots r (fun a => { a with reserved := a.reserved + 1 }) s

/-- Give up or spend a reservation (R171, R172). -/
def dropReservation (r : PartRing) (s : State) : State := updSlots r (fun a => { a with reserved := a.reserved - 1 }) s

/-- Whether a request lodged now on a part-written ring is granted at once: a free slot is left after the requests
lodged earlier (R171). -/
def grantsAtOnce (r : PartRing) (s : State) : Bool := decide ((s.slot r).waiting.length < freeSlots r s)

/-- Lodge a request that waits (R171). -/
def lodgeRequest (r : PartRing) (q : Requester) (s : State) : State :=
  updSlots r (fun a => { a with waiting := a.waiting ++ [q] }) s

/-- Withdraw a waiting request (R97). -/
def withdrawRequest (r : PartRing) (q : Requester) (s : State) : State :=
  updSlots r (fun a => { a with waiting := a.waiting.filter (· != q) }) s

/-- Send a part-written ring's vector and clear its arm flag (R173). -/
def sendVector (r : PartRing) (s : State) : State :=
  updSlots r (fun a => { a with armed := false }) (issue (.interrupt (s.ring (partRingId r)).vector) s)

/-- Write an entry at a ring's producer index: the entry, the index, the progress block, and the vector if the
ring is armed (R172). -/
def writeEntry (r : PartRing) (bytes : List Byte) (s : State) : State :=
  let ring := s.ring (partRingId r)
  let written := writeProgress (partRingId r)
    (updRing (partRingId r) (fun g => { g with producer := g.producer + 1 })
      (issue (.entry (ring.slotAddress ring.producer) (recordOf bytes)) s))
  if (s.slot r).armed then sendVector r written else written

/-- Write an entry against a reservation, which it spends (R172). -/
def writeReserved (r : PartRing) (bytes : List Byte) (s : State) : State := writeEntry r bytes (dropReservation r s)

/-! ## The notice writer (R174 to R176) -/

/-- Hold a notice in the pending-notice set: alone of its key, in the order of R176, counting what it replaces (R175). -/
def holdNotice (nt : Notice) : List HeldNotice → List HeldNotice
  | [] => [⟨nt, 0⟩]
  | h :: rest =>
    if noticeKey nt < noticeKey h.notice then ⟨nt, 0⟩ :: h :: rest
    else if noticeKey nt = noticeKey h.notice then ⟨nt, if h.merged = 255 then 255 else h.merged + 1⟩ :: rest
    else h :: holdNotice nt rest

/-- Hand the notice writer an unsolicited notice (R174). -/
def postNotice (nt : Notice) (s : State) : State :=
  if s.held.isEmpty && decide (1 ≤ freeSlots .notice s) then writeEntry .notice (noticeBytes nt 0) s
  else setHeld (holdNotice nt s.held) s

/-- Write held notices while the ring has a free slot (R176); the list is the set as it stands. -/
def writeHeld : List HeldNotice → State → State
  | [], s => s
  | h :: rest, s =>
    if 1 ≤ freeSlots .notice s then
      writeHeld rest (writeEntry .notice (noticeBytes h.notice h.merged) (setHeld rest s))
    else s

/-! ## The command unit's slot and report (R178, R181) -/

/-- Reserve the command unit's notice slot and read the command (R178). -/
def fetchCommand (s : State) : State :=
  readRecord .command (updCommand (fun c => { c with state := .fetch, slot := true }) (reserveSlot .notice s))

/-- Whether the command unit's request is granted: a free slot, and no notice held (R176). -/
def commandSlotFree (s : State) : Bool := s.held.isEmpty && decide (1 ≤ freeSlots .notice s)

/-- In IDLE with a command posted, ask for a notice slot (R178). -/
def pollCommand (s : State) : State :=
  if s.command.state = .idle ∧ 1 ≤ (s.ring .command).count then
    if commandSlotFree s then fetchCommand s
    else updCommand (fun c => { c with state := .slotWait }) s
  else s

/-- The line byte of a COMMAND_DONE (R181): 0 for TIME_SET, an unknown opcode and a bad line. -/
def doneLine (e : Record) : Nat :=
  match commandKind (opcode e) with
  | some k => if carriesLine k then ((commandLine e).map lineNumber).getD 0 else 0
  | none => 0

/-- The COMMAND_DONE of the current command (R181). -/
def commandReport (c : CommandEntry) (status : CommandStatus) (result : List Byte) : CommandDone :=
  ⟨doneLine c.entry, c.index, opcode c.entry, status, result⟩

/-- End the current command: its COMMAND_DONE is written into the slot held, the unit returns to IDLE, and asks for the
next command (R180, R181). -/
def endCommand (status : CommandStatus) (result : List Byte) (s : State) : State :=
  match s.command.current with
  | some c =>
    pollCommand
      (updCommand (fun _ => CommandUnit.reset)
        (writeReserved .notice (commandDoneBytes (commandReport c status result)) s))
  | none => s

/-! ## The offer (R30 to R33) -/

/-- The limit of the credit a line may have outstanding (R31, R32). -/
def creditBound (st : Store) : Nat :=
  match st.policy with
  | .lossless => min Config.creditLimit (min st.freeBytes st.freeEntries)
  | .dropNew => Config.creditLimit

/-- The offer for a room (R30). -/
def offerOf (room : Nat) : Option Nat := if room < 16 then none else some (min 8 (room / 16))

/-- Work a line's offer out again (R33); outside RUN it is none (R25). -/
def reckonOffer (n : LineId) (s : State) : State :=
  updCredit n
    (fun c => { c with
      offer := if (s.port n).state = .run then offerOf (creditBound (s.store n) - c.outstanding) else none })
    s

end Sys2Proof.Machine
end

