-- ==== Sys2Proof/Machine/OutboundOps.lean ====
section
/-! DEFINITION. The operations of the outbound engine (chapter 6): taking send records, the staging buffer, the arbiter, SENT
entries and the cancel. Ending a packet's transmission, which reaches the source line's head engine, is in HeadOps. -/

namespace Sys2Proof.Machine

/-! ## The heads the arbiter sees -/

/-- The head of a store: the oldest entry of its index (R45). -/
def headEntry (n : LineId) (s : State) : Option IndexEntry := (s.store n).index.head?

/-- Change the head of an index. -/
def mapHead (f : IndexEntry → IndexEntry) : List IndexEntry → List IndexEntry
  | [] => []
  | e :: rest => f e :: rest

/-- Change the head of a store's index. -/
def updHeadEntry (n : LineId) (f : IndexEntry → IndexEntry) (s : State) : State :=
  updStore n (fun st => { st with index := mapHead f st.index }) s

/-- Set the forward leg of a store's head. -/
def setForwardLeg (n : LineId) (leg : Leg) (s : State) : State := updHeadEntry n (fun e => { e with forward := leg }) s

/-- Set the delivery leg of a store's head. -/
def setDeliveryLeg (n : LineId) (leg : Leg) (s : State) : State := updHeadEntry n (fun e => { e with delivery := leg }) s

/-- The bytes the strip choice leaves out of an entry: 1 for a disposition that strips and a packet with a tag (R69, R98). -/
def strippedBytes (e : IndexEntry) : Nat :=
  match e.disposition with
  | some d => if d.strip && e.tag.isSome then 1 else 0
  | none => 0

/-! ## Taking send records (R118) -/

/-- In WAIT_RECORD, take the next record if the line is configured, no chain is held and the ring holds one (R118). -/
def fetchSend (n : LineId) (s : State) : State :=
  let o := s.outbound n
  if o.fetch = .waitRecord ∧ o.held = none ∧ o.cancel = none ∧ (s.port n).configured = true
      ∧ 1 ≤ (s.ring (.send n)).count then
    readRecord (.send n) (updOutbound n (fun o => { o with fetch := .fetch }) s)
  else s

/-- Whether taking this record makes the chain whole (R119). -/
def makesWhole (chain : List SendRecord) (r : SendRecord) : Bool :=
  !r.continues || decide (Config.recordLimit ≤ chain.length + 1)

/-- The bytes of a chain's packet (R117). -/
def chainLength (records : List SendRecord) : Nat := (records.map (fun r => r.length.toNat)).sum

/-- The judgement of a whole chain (R119). -/
def judgeChain (records : List SendRecord) : Verdict :=
  if (records.getLast?.map (·.continues)).getD false || decide (Config.lengthLimit < chainLength records) then .invalid
  else .valid

/-- Whether the last record of a chain asks for ABANDON (R117). -/
def chainAbandons (records : List SendRecord) : Bool := (records.getLast?.map (·.abandon)).getD false

/-! ## The staging buffer (R126, R128) -/

/-- The bytes held or on their way (R126). -/
def Staging.held (g : Staging) : Nat := g.bytes.length + (g.reads.map (·.length)).sum

/-- Issue reads in packet order while the buffer has room for them (R126); a run of length 0 is passed over. The number
bounds how many runs and reads are looked at. -/
def stageReads : Nat → Staging → Staging × List Segment
  | 0, g => (g, [])
  | k + 1, g =>
    match g.todo with
    | [] => (g, [])
    | seg :: rest =>
      if seg.length = 0 then stageReads k { g with todo := rest }
      else
        let size := min Config.readSize seg.length
        if g.held + size ≤ Config.stagingSize then
          let left := if seg.length = size then rest else ⟨seg.start + size, seg.length - size⟩ :: rest
          let next := stageReads k { g with reads := g.reads ++ [⟨seg.start, size, none⟩], todo := left }
          (next.1, ⟨seg.start, size⟩ :: next.2)
        else (g, [])

/-- Reads enough to look at every run: each look ends a run, or issues one of at most 8 whole reads. -/
def stagingLooks (g : Staging) : Nat := g.todo.length + Config.stagingSize / Config.readSize

/-- Move the bytes of reads that have returned to the front of the buffer, in packet order (R126). -/
def absorbReads (bytes : List Byte) : List StagedRead → List Byte × List StagedRead
  | [] => (bytes, [])
  | r :: rest =>
    match r.data with
    | some d => absorbReads (bytes ++ d) rest
    | none => (bytes, r :: rest)

/-- Issue what reads the staging buffer has room for (R126, R128): reads of host memory go out on the host bus. The addresses of a send
record's bytes are reckoned modulo 2^64, so that a record that runs past the top of the host address space is read on from address 0:
R126 does not speak of it (DESIGN CHOICE, log entry 32). -/
def issueReads (n : LineId) (s : State) : State :=
  let o := s.outbound n
  let next := stageReads (stagingLooks o.staging) o.staging
  let staged := updOutbound n (fun o => { o with staging := next.1 }) s
  match o.transmission with
  | .host _ => issueAll (next.2.map (fun seg => .read (BitVec.ofNat 64 seg.start) seg.length)) staged
  | .forward _ _ _ => staged
  | .none => staged

/-- Whether every data byte of the packet has been taken (R125). -/
def Staging.spent (g : Staging) : Bool := g.bytes.isEmpty && g.reads.isEmpty && g.todo.isEmpty

/-! ## The arbiter (R122, R123) -/

/-- Whether requester H is present: a ready chain, and no cancel (R122). -/
def hostPresent (n : LineId) (s : State) : Bool :=
  match (s.outbound n).held with
  | some c => c.verdict == .valid && (s.outbound n).fetch == .holding && (s.outbound n).cancel.isNone
  | none => false

/-- Whether requester Si is present at the arbiter of line d: store i's head is decided with its forward leg PENDING toward d
and hold is off on line i (R122). -/
def forwardPresent (d i : LineId) (s : State) : Bool :=
  match headEntry i s with
  | some e =>
    match e.disposition with
    | some t => e.forward == .pending && t.destination == d && !(s.head i).hold
    | none => false
  | none => false

/-- Whether a requester is present at the arbiter of a line. -/
def present (d : LineId) (s : State) : Winner → Bool
  | .host => hostPresent d s
  | .store i => forwardPresent d i s

/-- The order of the next grant after a winner (R123). -/
def arbiterOrder : Winner → List Winner
  | .host => [.store .l0, .store .l1, .store .l2, .store .l3, .host]
  | .store .l0 => [.store .l1, .store .l2, .store .l3, .host, .store .l0]
  | .store .l1 => [.store .l2, .store .l3, .host, .store .l0, .store .l1]
  | .store .l2 => [.store .l3, .host, .store .l0, .store .l1, .store .l2]
  | .store .l3 => [.host, .store .l0, .store .l1, .store .l2, .store .l3]

/-- The requester the arbiter of a line would grant (R123). -/
def arbiterChoice (d : LineId) (s : State) : Option Winner :=
  (arbiterOrder (s.outbound d).lastWinner).find? (present d s)

/-- The runs of host memory that a chain's bytes are read from (R126). -/
def chainRuns (records : List SendRecord) : List Segment :=
  records.map (fun r => ⟨r.address.toNat, r.length.toNat⟩)

/-- The run of region offsets that a forward's bytes are read from (R128). -/
def forwardRun (e : IndexEntry) : List Segment :=
  [⟨e.offset + strippedBytes e, e.stored - strippedBytes e⟩]

/-- Put a packet in transmission on a line (R123): the winner recorded, nothing sent, and its reads issued from the grant. -/
def startTransmission (d : LineId) (w : Winner) (t : Transmission) (runs : List Segment) (s : State) : State :=
  issueReads d (updOutbound d
    (fun o => { o with
      lastWinner := w, transmission := t, bytesSent := 0, failure := .none, staging := ⟨[], [], runs⟩ })
    s)

/-- Grant the transmitter to the ready chain (R126): the held chain becomes none and the engine may take the next. -/
def grantHost (d : LineId) (s : State) : State :=
  match (s.outbound d).held with
  | some c =>
    fetchSend d
      (startTransmission d .host (.host c) (chainRuns c.records)
        (updOutbound d (fun o => { o with held := none, fetch := .waitRecord }) s))
  | none => s

/-- Grant the transmitter to the head of a store (R128): its forward leg becomes ACTIVE (R79). -/
def grantForward (d i : LineId) (s : State) : State :=
  match headEntry i s with
  | some e =>
    startTransmission d (.store i)
      (.forward i e.sequence ((e.disposition.map (·.strip)).getD false)) (forwardRun e)
      (setForwardLeg i .active s)
  | none => s

/-- Grant a line's transmitter if the line is in RUN, no packet is in transmission and a requester is present (R123). -/
def arbitrate (d : LineId) (s : State) : State :=
  if (s.port d).state = .run ∧ (s.outbound d).transmission = .none then
    match arbiterChoice d s with
    | some .host => grantHost d s
    | some (.store i) => grantForward d i s
    | none => s
  else s

/-! ## SENT entries (R136) -/

/-- The SENT entry of a chain (R136). -/
def sentEntry (n : LineId) (records : List SendRecord) (bytes : Nat) (status : SentStatus) (endKind : Option EndKind) :
    Sent where
  line := n
  firstIndex := (records.head?.map (·.index)).getD 0
  count := records.length
  lastCookie := (records.getLast?.map (·.cookie)).getD 0
  bytesSent := bytes
  status := status
  endKind := endKind

/-- Write a chain's SENT entry into its reserved slot (R127). -/
def writeSent (n : LineId) (records : List SendRecord) (bytes : Nat) (status : SentStatus) (endKind : Option EndKind)
    (s : State) : State :=
  writeReserved (.completion n) (sentBytes (sentEntry n records bytes status endKind)) s

/-- Whether a host chain is in transmission on a line. -/
def hostInTransmission (n : LineId) (s : State) : Bool :=
  match (s.outbound n).transmission with
  | .host _ => true
  | .forward _ _ _ => false
  | .none => false

/-- Write the BAD_CHAIN entry of an INVALID held chain, once no host chain of the line is in transmission (R121). -/
def reportBadChain (n : LineId) (s : State) : State :=
  match (s.outbound n).held with
  | some c =>
    if c.verdict = .invalid ∧ hostInTransmission n s = false then
      fetchSend n
        (updOutbound n (fun o => { o with held := none, fetch := .waitRecord })
          (writeSent n c.records 0 .badChain none s))
    else s
  | none => s

/-! ## The cancel (R138, R139) -/

/-- The status with which a cancel completes a chain (R139). -/
def cancelStatus : Verdict → SentStatus
  | .valid => .cancelled
  | .cancelled => .cancelled
  | .invalid => .badChain

/-- Complete a chain under a cancel: its SENT entry into its reserved slot, and the counts of the cancel (R139). -/
def cancelChain (n : LineId) (c : Chain) (s : State) : State :=
  let counted := cancelStatus c.verdict = .cancelled
  updOutbound n
    (fun o => { o with
      fetch := .waitRecord, waiting := none, held := none,
      cancel := o.cancel.map (fun k =>
        if counted then { k with chains := k.chains + 1, records := k.records + BitVec.ofNat 32 c.records.length } else k) })
    (writeSent n c.records 0 (cancelStatus c.verdict) none s)

/-- The result of a SEND_CANCEL (R139, 10.6). -/
def cancelResult (k : Cancel) : List Byte := le32 k.chains ++ le32 k.records

/-- The cancel is done (R139): the engine returns to WAIT_RECORD and the command ends with its counts. -/
def finishCancel (n : LineId) (k : Cancel) (s : State) : State :=
  fetchSend n
    (endCommand .ok (cancelResult k)
      (updOutbound n (fun o => { o with cancel := none, fetch := .waitRecord, assembly := [], held := none }) s))

/-- Ask for the slot of a chain assembled by a cancel, and complete it if the slot is granted (R139, step 3). -/
def cancelAssembly (n : LineId) (s : State) : State :=
  let c : Chain := ⟨(s.outbound n).assembly, .cancelled⟩
  let emptied := updOutbound n (fun o => { o with assembly := [] }) s
  if grantsAtOnce (.completion n) s then cancelChain n c (reserveSlot (.completion n) emptied)
  else
    lodgeRequest (.completion n) .outbound
      (updOutbound n (fun o => { o with fetch := .slotWait, waiting := some c }) emptied)

/-- In WAIT_RECORD under a cancel with nothing assembled and no record left before the limit, the cancel is done (R139). -/
def closeCancel (n : LineId) (s : State) : State :=
  match (s.outbound n).cancel with
  | some k =>
    if (s.outbound n).fetch = .waitRecord ∧ (s.outbound n).assembly = [] then finishCancel n k s else s
  | none => s

/-- In WAIT_RECORD under a cancel: take the next record before the limit index, or complete the trailing chain, or be done
(R139, steps 3 and 4). A chain under assembly with no record left before the limit index is completed CANCELLED by step 4, and waits
for its slot if none is free, also when the cancel finds it so, where R139 and R189 say in general that a cancel with no judged chain
and no record before the limit index ends at once (DEDUCED, log entry 33). -/
def advanceCancel (n : LineId) (s : State) : State :=
  match (s.outbound n).cancel with
  | some k =>
    if (s.outbound n).fetch = .waitRecord then
      if (s.ring (.send n)).consumer ≠ k.limit ∧ 1 ≤ (s.ring (.send n)).count then
        readRecord (.send n) (updOutbound n (fun o => { o with fetch := .fetch }) s)
      else if (s.outbound n).assembly = [] then finishCancel n k s
      else closeCancel n (cancelAssembly n s)
    else s
  | none => s

/-- Begin a cancel (R138), completing a held chain in its reserved slot at once (R139, step 1). -/
def beginCancel (n : LineId) (s : State) : State :=
  let limit := (s.ring (.send n)).producer
  let begun := updOutbound n (fun o => { o with cancel := some ⟨limit, 0, 0⟩ }) s
  match (s.outbound n).held with
  | some c => advanceCancel n (cancelChain n c begun)
  | none => advanceCancel n begun

/-! ## Whole chains and their slots (R119, R120) -/

/-- The judged chain has its slot (R120): under a cancel it is completed (R139); otherwise it becomes the held chain, goes to
the arbiter if VALID, and is reported if INVALID (R121). -/
def holdChain (n : LineId) (c : Chain) (s : State) : State :=
  if (s.outbound n).cancel.isSome then advanceCancel n (cancelChain n c s)
  else
    let held := updOutbound n (fun o => { o with fetch := .holding, held := some c, waiting := none }) s
    if c.verdict = .invalid then reportBadChain n held else arbitrate n held

/-- Ask for the slot of a whole chain (R119, R120). -/
def submitChain (n : LineId) (c : Chain) (s : State) : State :=
  if grantsAtOnce (.completion n) s then holdChain n c (reserveSlot (.completion n) s)
  else
    lodgeRequest (.completion n) .outbound
      (updOutbound n (fun o => { o with fetch := .slotWait, waiting := some c }) s)

/-- A send record has been taken (R118): it joins the chain under assembly; a whole chain is judged and asks for its slot (R119),
or, under a cancel, is completed unjudged (R139). -/
def acceptSendRecord (n : LineId) (r : SendRecord) (s : State) : State :=
  let chain := (s.outbound n).assembly ++ [r]
  let whole := makesWhole (s.outbound n).assembly r
  let taken := updOutbound n (fun o => { o with fetch := .waitRecord, assembly := chain }) s
  if (s.outbound n).cancel.isSome then
    if whole then advanceCancel n (cancelAssembly n taken) else advanceCancel n taken
  else if whole then
    submitChain n ⟨chain, judgeChain chain⟩ (updOutbound n (fun o => { o with assembly := [] }) taken)
  else fetchSend n taken

/-- The outbound engine's waiting request is granted (R120): its slot is already reserved. -/
def resumeOutbound (n : LineId) (s : State) : State :=
  match (s.outbound n).waiting with
  | some c => holdChain n c s
  | none => s

end Sys2Proof.Machine
end

