-- ==== Sys2Proof/Machine/DeliveryOps.lean ====
section
/-! DEFINITION. The operations of the delivery engine (chapter 5): taking up a leg, asking for fill records and slots, the
DELIVERED and FILL_REJECTED entries, and the end of a leg. The head engine retires the head after a leg has ended (HeadOps). -/

namespace Sys2Proof.Machine

/-- The bytes a leg delivers (R98). -/
def bytesToDeliver (e : IndexEntry) : Nat := e.stored - strippedBytes e

/-- The DELIVERED entry of the leg in hand (R110). -/
def deliveredEntry (n : LineId) (e : IndexEntry) (s : State) : Delivered where
  line := n
  sequence := e.sequence
  tag := e.tag
  endKind := e.endKind
  truncated := e.truncated
  stripped := decide (strippedBytes e = 1)
  short := (s.delivery n).short
  expired := (s.delivery n).partialEnd
  faultPosition := (s.delivery n).faultPosition
  delivered := (s.delivery n).delivered
  received := e.received
  stamp := e.stamp
  firstIndex := ((s.delivery n).records.head?.map (·.index)).getD (s.ring (.fill n)).consumer
  recordsUsed := (s.delivery n).records.length
  firstCookie := ((s.delivery n).records.head?.map (·.cookie)).getD 0

/-- How the leg in hand ends (R80): FAILED(EXPIRED) when partial, DONE otherwise. -/
def legEnd (d : Delivery) : Leg := if d.partialEnd then .failed .expired else .done

/-- The delivery engine back in IDLE (R111). -/
def idleDelivery (d : Delivery) : Delivery :=
  { d with state := .idle, leg := false, records := [], current := none }

/-- POST (R111): the DELIVERED entry into the packet slot, the leg's end reported, the progress index and the vector, and
back to IDLE. -/
def postDelivered (n : LineId) (s : State) : State :=
  match headEntry n s with
  | some e =>
    let posting := updDelivery n (fun d => { d with state := .post, current := none }) s
    let written := writeReserved (.completion n) (deliveredBytes (deliveredEntry n e posting)) posting
    updDelivery n (fun d => idleDelivery { d with packetSlot := false })
      (setDeliveryLeg n (legEnd (posting.delivery n)) written)
  | none => s

/-- End the leg as partial (R108): a spare slot held is given back, a request for one is withdrawn, and the DELIVERED entry
carries EXPIRED. -/
def endPartial (n : LineId) (s : State) : State :=
  let returned := if (s.delivery n).spareSlot then dropReservation (.completion n) s else s
  postDelivered n
    (updDelivery n (fun d => { d with partialEnd := true, spareSlot := false })
      (withdrawRequest (.completion n) .delivery returned))

/-- Hold the spare slot and read the next fill record (R100, R101). -/
def fetchFill (n : LineId) (s : State) : State :=
  readRecord (.fill n) (updDelivery n (fun d => { d with state := .fetch, spareSlot := true }) s)

/-- Ask for a spare slot (R100); with the head expired and no slot free the leg ends partial (R108). -/
def reserveSpare (n : LineId) (s : State) : State :=
  if grantsAtOnce (.completion n) s then fetchFill n (reserveSlot (.completion n) s)
  else if (s.head n).expired then endPartial n s
  else lodgeRequest (.completion n) .delivery (updDelivery n (fun d => { d with state := .spareWait }) s)

/-- The leg needs a fill record (R99). -/
def needRecord (n : LineId) (s : State) : State :=
  if 1 ≤ (s.ring (.fill n)).count then reserveSpare n s
  else if (s.head n).expired then endPartial n s
  else updDelivery n (fun d => { d with state := .recordWait }) s

/-- The packet slot is held (R97): the leg becomes ACTIVE; with nothing to deliver it goes straight to POST (R106), and
otherwise needs a fill record. -/
def startLeg (n : LineId) (s : State) : State :=
  match headEntry n s with
  | some e =>
    let started := setDeliveryLeg n .active
      (updDelivery n
        (fun d => { d with
          leg := true, packetSlot := true, toDeliver := bytesToDeliver e, delivered := 0, records := [], current := none,
          faultPosition := none, short := false, partialEnd := false })
        s)
    if bytesToDeliver e = 0 then postDelivered n started else needRecord n started
  | none => s

/-- Take up the head's delivery leg (R97): reserve the packet slot, or wait for it in SLOT_WAIT. -/
def takeUpLeg (n : LineId) (s : State) : State :=
  if grantsAtOnce (.completion n) s then startLeg n (reserveSlot (.completion n) s)
  else
    lodgeRequest (.completion n) .delivery
      (updDelivery n (fun d => { d with state := .slotWait, leg := true }) s)

/-- Withdraw the offer of a PENDING leg (R97): an engine in SLOT_WAIT returns to IDLE with no slot reserved. -/
def withdrawOffer (n : LineId) (s : State) : State :=
  if (s.delivery n).state = .slotWait then
    updDelivery n idleDelivery (withdrawRequest (.completion n) .delivery s)
  else s

/-- A delivery engine in RECORD_WAIT that finds a record in the fill ring leaves the wait (R107). -/
def resumeRecordWait (n : LineId) (s : State) : State :=
  if (s.delivery n).state = .recordWait ∧ 1 ≤ (s.ring (.fill n)).count then reserveSpare n s else s

/-- The delivery engine's waiting request is granted (R97, R100): its slot is already reserved. -/
def resumeDelivery (n : LineId) (s : State) : State :=
  match (s.delivery n).state with
  | .slotWait => startLeg n s
  | .spareWait => fetchFill n s
  | .idle => s
  | .recordWait => s
  | .fetch => s
  | .write => s
  | .post => s

/-- Judge a fill record taken (R102): a valid one gives the spare slot back and becomes the current record; an invalid one is
reported in the spare slot (R103) and the leg needs another. -/
def judgeFill (n : LineId) (f : FillRecord) (s : State) : State :=
  if sizeCheckFails f || alignmentCheckFails f then
    match headEntry n s with
    | some e =>
      needRecord n
        (updDelivery n (fun d => { d with spareSlot := false })
          (writeReserved (.completion n) (fillRejectedBytes ⟨n, f, e.sequence⟩) s))
    | none => s
  else
    updDelivery n
      (fun d => { d with
        state := .write, spareSlot := false, records := d.records ++ [f], current := some ⟨f, 0⟩ })
      (dropReservation (.completion n) s)

/-- The fault position after a write that met an uncorrectable word after `k` of its bytes (R109). -/
def noteFault (d : Delivery) (k : Option Nat) : Option Nat :=
  match d.faultPosition with
  | some p => some p
  | none => k.map (fun k => d.delivered + k)

/-- The bytes the engine writes into the current buffer next (R104). -/
def bufferBytes (d : Delivery) (c : CurrentRecord) : Nat :=
  min (d.toDeliver - d.delivered) (c.record.size.toNat - c.written)

/-- Write the next bytes into the current buffer (R104): they are read from the store, and a word found uncorrectable sets
the fault position (R109). The buffer's addresses are reckoned modulo 2^64 (DESIGN CHOICE, log entry 32). -/
def writeBuffer (n : LineId) (e : IndexEntry) (c : CurrentRecord) (s : State) : State :=
  let d := s.delivery n
  let size := bufferBytes d c
  let addresses := (s.store n).run (e.offset + strippedBytes e + d.delivered) size
  let bytes := ddrBytes s.ddr s.ddr.faultyReads addresses
  updDdr (fun m => m.noteRead addresses)
    (updDelivery n
      (fun d => { d with
        delivered := d.delivered + size,
        faultPosition := noteFault d (firstFault s.ddr addresses),
        current := some ⟨c.record, c.written + size⟩ })
      (issue (.buffer (c.record.address + BitVec.ofNat 64 c.written) bytes) s))

/-- The current buffer is written (R104, R105): all delivered, short after the sixteenth record, or another record needed. -/
def afterBuffer (n : LineId) (s : State) : State :=
  let d := s.delivery n
  if d.toDeliver ≤ d.delivered then postDelivered n s
  else if Config.recordLimit ≤ d.records.length then
    postDelivered n (updDelivery n (fun d => { d with short := true }) s)
  else needRecord n (updDelivery n (fun d => { d with current := none }) s)

end Sys2Proof.Machine
end

