-- ==== Sys2Proof/Machine/HeadOps.lean ====
section
/-! DEFINITION. The operations of the head engine (chapter 4) and what a store does for it (3.6): deciding, retiring, releasing
behind the head, hold, expiry and flush. `settleHead` carries a head engine on until nothing more comes about at once. -/

namespace Sys2Proof.Machine

/-! ## Deciding (R74 to R76) -/

/-- Whether a packet is bad (R72). -/
def isBad (e : IndexEntry) : Bool := e.truncated || e.endKind == some .abandon || e.endKind == some .linkLost

/-- The forward-table entry number of a tag, or of UNTAGGED (R69). -/
def tableIndex (tag : Option Byte) : Nat :=
  match tag with
  | some t => t.toNat
  | none => 256

/-- The forward-table entry with a number (R69). -/
def tableEntry (h : HeadEngine) (k : Nat) : Disposition := h.table[k]?.getD Disposition.reset

/-- The disposition of a packet (R74). A packet discarded by the rule DROP has no table entry; its destination and strip
choice are not used (R69). -/
def dispositionOf (h : HeadEngine) (e : IndexEntry) : Disposition :=
  if h.badRule = .drop ∧ isBad e = true then ⟨.discard, .l0, false⟩ else tableEntry h (tableIndex e.tag)

/-- The delivery leg an action sets (R75). -/
def deliveryLegOf : Action → Leg
  | .deliver => .pending
  | .copy => .pending
  | .forward => .absent
  | .discard => .absent

/-- The forward leg an action sets (R75). -/
def forwardLegOf : Action → Leg
  | .forward => .pending
  | .copy => .pending
  | .deliver => .absent
  | .discard => .absent

/-- The head timer at its full limit, in microseconds (R85). -/
def fullHeadTimer (h : HeadEngine) : Option Nat := if h.limit = 0 then none else some (h.limit * 1000)

/-- The head timer after a decide (R75, R76, R85). -/
def timerAtDecide (h : HeadEngine) (d : Disposition) : Option Nat :=
  if h.hold || d.action == .discard then h.timer else fullHeadTimer h

/-- Decide the head (R74): record the disposition, set the legs, start the head timer, and present a forward request (R79). -/
def decideHead (n : LineId) (s : State) : State :=
  match headEntry n s with
  | some e =>
    let d := dispositionOf (s.head n) e
    let decided := updHead n (fun h => { h with timer := timerAtDecide h d })
      (updHeadEntry n
        (fun e => { e with
          disposition := some d, delivery := deliveryLegOf d.action, forward := forwardLegOf d.action })
        s)
    if forwardLegOf d.action = .pending ∧ (s.head n).hold = false then arbitrate d.destination decided else decided
  | none => s

/-! ## Retirement (R61, R82) -/

/-- Whether a leg is live (R77). -/
def Leg.live : Leg → Bool
  | .pending => true
  | .active => true
  | .absent => false
  | .done => false
  | .failed _ => false

/-- Remove the head from a store (R61). -/
def removeHead (st : Store) : Store :=
  match st.index with
  | e :: rest =>
    { st with
      index := rest, occupied := st.occupied - e.stored, readOffset := (st.readOffset + e.stored) % st.size }
  | [] => st

/-- Whether a retiring head was discarded at its decide (R76). -/
def discardedAtDecide (e : IndexEntry) : Bool := e.disposition.map (·.action) == some .discard

/-- Whether a flush in progress counts the retiring head discarded (R91). -/
def flushCounts (h : HeadEngine) (e : IndexEntry) : Bool :=
  h.flush.isSome && !h.expired && e.delivery != .done && e.forward != .done

/-- A flag as a count. -/
def oneIf (b : Bool) : BitVec 32 := if b then 1 else 0

/-- The head engine after its head has retired (R82). -/
def headAfterRetire (h : HeadEngine) (e : IndexEntry) : HeadEngine :=
  { h with
    timer := none, expired := false,
    expiredCount := h.expiredCount + oneIf h.expired,
    discardedCount := h.discardedCount + oneIf (discardedAtDecide e || flushCounts h e),
    flush := none }

/-- The end of a flush at its head's retirement (R91): the command ends with the packets counted. -/
def endFlush (flush : Option (BitVec 32)) (counted : Bool) (s : State) : State :=
  match flush with
  | some k => endCommand .ok (le32 (k + oneIf counted)) s
  | none => s

/-- Retire the head (R61, R82, R89, R91). -/
def retireHead (n : LineId) (s : State) : State :=
  match headEntry n s with
  | some e =>
    let h := s.head n
    let removed := updHead n (fun h => headAfterRetire h e) (updStore n removeHead s)
    let noticed :=
      if h.expired then
        postNotice (.headExpired n e.sequence e.tag e.delivery e.forward (h.expiredCount + 1)) removed
      else removed
    endFlush h.flush (flushCounts h e) (reckonOffer n noticed)
  | none => s

/-! ## What comes about at once at a head -/

/-- The next thing the head engine does at once, if any: decide a COMPLETE head (R74), retire a head with no live leg (R82), or
have an idle delivery engine take up its leg (R78, R97). -/
def headStep (n : LineId) (s : State) : Option State :=
  match headEntry n s with
  | some e =>
    if e.state = .arriving then none
    else if e.disposition = none then some (decideHead n s)
    else if e.delivery.live = false ∧ e.forward.live = false then some (retireHead n s)
    else if e.delivery = .pending ∧ (s.head n).hold = false ∧ (s.delivery n).state = .idle then some (takeUpLeg n s)
    else none
  | none => none

/-- Take head steps until none is left, or the number runs out. -/
def headRun : Nat → LineId → State → State
  | 0, _, s => s
  | k + 1, n, s =>
    match headStep n s with
    | some t => headRun k n t
    | none => s

/-- Carry the head engine on until nothing more comes about at once: each entry takes at most three steps. -/
def settleHead (n : LineId) (s : State) : State := headRun (3 * (s.store n).index.length + 3) n s

/-! ## Release behind the head (R62) -/

/-- The entries a release removes: all behind the head but an OPEN youngest. -/
def releasable (rest : List IndexEntry) : List IndexEntry :=
  match rest.getLast? with
  | some y => if y.state = .arriving then rest.dropLast else rest
  | none => []

/-- The OPEN youngest entry behind the head, if there is one. -/
def openBehind (rest : List IndexEntry) : Option IndexEntry :=
  match rest.getLast? with
  | some y => if y.state = .arriving then some y else none
  | none => none

/-- The sum of the stored lengths of entries (R45). -/
def storedSum (index : List IndexEntry) : Nat := (index.map (·.stored)).sum

/-- The pairs of source and destination words of a move (R62). -/
def movedWords (sources destinations : List Nat) : List (Nat × Nat) :=
  (sources.zip destinations).map (fun p => (p.1 / 8, p.2 / 8))

/-- Move bytes (R62): a destination word that receives a byte from an uncorrectable word is marked uncorrectable. The bytes
themselves go as the memory holds them, and in a marked word they are never returned (R44). -/
def Ddr.move (d : Ddr) (sources destinations : List Nat) : Ddr :=
  let bytes := sources.map (cellRead d.cells)
  let written := (destinations.zip bytes).foldl (fun m p => m.write p.1 p.2) d
  (movedWords sources destinations).foldl (fun m p => if d.badWords.contains p.1 then m.corrupt p.2 else m) written

/-- Release every COMPLETE entry behind the head (R62), moving an OPEN entry's bytes down. -/
def releaseBehind (n : LineId) (s : State) : State :=
  let st := s.store n
  match st.index with
  | [] => s
  | h :: rest =>
    let gone := releasable rest
    if gone.isEmpty then s
    else
      let next := (h.offset + h.stored) % st.size
      let occupied := st.occupied - storedSum gone
      match openBehind rest with
      | none => updStore n (fun st => { st with index := [h], occupied := occupied, writeOffset := next }) s
      | some y =>
        updDdr (fun d => d.move (st.run y.offset y.stored) (st.run next y.stored))
          (updStore n
            (fun st => { st with
              index := [h, { y with offset := next }], occupied := occupied,
              writeOffset := (next + y.stored) % st.size })
            s)

/-- The number of entries a release removes (R62). -/
def releaseCount (n : LineId) (s : State) : Nat := (releasable (s.store n).index.tail).length

/-! ## Hold, expiry and flush at the legs -/

/-- A PENDING leg fails for a cause, and any other leg stays as it is. -/
def failPending (cause : LegCause) (leg : Leg) : Leg := if leg = .pending then .failed cause else leg

/-- Fail the head's PENDING legs (R86, R90): the delivery leg's offer is withdrawn, the forward request leaves its arbiter. -/
def failPendingLegs (n : LineId) (cause : LegCause) (s : State) : State :=
  updHeadEntry n
    (fun e => { e with delivery := failPending cause e.delivery, forward := failPending cause e.forward })
    (withdrawOffer n s)

/-- The destination of the head's forward leg, while it is PENDING. -/
def pendingDestination (n : LineId) (s : State) : Option LineId :=
  match headEntry n s with
  | some e => if e.forward = .pending then e.disposition.map (·.destination) else none
  | none => none

/-- Set hold (R83): the timer stops and a PENDING delivery leg's offer is withdrawn. -/
def setHold (n : LineId) (s : State) : State :=
  if (s.head n).hold then s
  else withdrawOffer n (updHead n (fun h => { h with hold := true, timer := none }) s)

/-- Whether the head timer starts when hold goes off (R84): a decided head, and the expired mark clear. -/
def timerAtRelease (n : LineId) (s : State) : Option Nat :=
  match headEntry n s with
  | some e => if e.disposition.isSome && !(s.head n).expired then fullHeadTimer (s.head n) else (s.head n).timer
  | none => (s.head n).timer

/-- Clear hold (R84): the timer starts afresh and the head's PENDING legs are offered again. -/
def clearHold (n : LineId) (s : State) : State :=
  if (s.head n).hold then
    let cleared := updHead n (fun h => { h with hold := false, timer := timerAtRelease n s }) s
    let offered :=
      match pendingDestination n cleared with
      | some d => arbitrate d cleared
      | none => cleared
    settleHead n offered
  else s

/-- The head timer expires (R86): the mark is set, PENDING legs fail, a stalled delivery ends partial, and the head may
retire. -/
def expireHead (n : LineId) (s : State) : State :=
  let marked := failPendingLegs n .expired (updHead n (fun h => { h with timer := none, expired := true }) s)
  let ended :=
    if (marked.delivery n).state = .recordWait ∨ (marked.delivery n).state = .spareWait then endPartial n marked
    else marked
  settleHead n ended

/-- Carry out a flush (R90, R91): release, count, fail the head's PENDING legs, and wait for the head. -/
def flushStore (n : LineId) (s : State) : State :=
  let count := BitVec.ofNat 32 (releaseCount n s)
  let released := reckonOffer n
    (updHead n (fun h => { h with discardedCount := h.discardedCount + count }) (releaseBehind n s))
  match headEntry n s with
  | none => endCommand .ok (le32 count) released
  | some e =>
    if e.state = .arriving then endCommand .ok (le32 count) released
    else
      let waiting := updCommand (fun c => { c with wait := .flush n })
        (updHead n (fun h => { h with flush := some count }) released)
      if e.disposition = none then settleHead n (retireHead n waiting)
      else settleHead n (failPendingLegs n .flushed waiting)

/-! ## The end of a transmission (R127, R130 to R134) -/

/-- The transmitter of a line has no packet (R130). -/
def clearTransmission (o : Outbound) : Outbound :=
  { o with transmission := .none, bytesSent := 0, staging := Staging.empty, failure := .none }

/-- The end kind of the closing character of the packet in transmission (R126, R128, R131, R132). -/
def closingKind (n : LineId) (s : State) : EndKind :=
  if (s.outbound n).failure ≠ .none then .abandon
  else
    match (s.outbound n).transmission with
    | .host c => if chainAbandons c.records then .abandon else .good
    | .forward i _ _ =>
      match headEntry i s with
      | some e => if e.endKind = some .good ∧ e.truncated = false then .good else .abandon
      | none => .abandon
    | .none => .good

/-- The transmitter has taken the closing character (R130): the chain's SENT entry is written (R127, R131) or the forward's leg
reported (R128, R132), and the arbiter grants again. -/
def endTransmission (n : LineId) (s : State) : State :=
  let o := s.outbound n
  match o.transmission with
  | .host c =>
    let status := if o.failure = .none then SentStatus.ok else .hostReadError
    arbitrate n (reportBadChain n
      (updOutbound n clearTransmission (writeSent n c.records o.bytesSent status (some (closingKind n s)) s)))
  | .forward i _ _ =>
    let leg := if o.failure = .none then Leg.done else .failed .storeFault
    settleHead i (arbitrate n (updOutbound n clearTransmission (setForwardLeg i leg s)))
  | .none => s

/-- Loss of RUN cuts the packet in transmission (R133, R134). The source's head engine is carried on by the caller. -/
def cutTransmission (n : LineId) (s : State) : State :=
  let o := s.outbound n
  match o.transmission with
  | .host c =>
    let status := if o.failure = .none then SentStatus.linkLost else .hostReadError
    reportBadChain n (updOutbound n clearTransmission (writeSent n c.records o.bytesSent status none s))
  | .forward i sequence _ =>
    let tag := (headEntry i s).bind (·.tag)
    postNotice (.forwardCut i n sequence tag (BitVec.ofNat 16 o.bytesSent))
      (updOutbound n clearTransmission (setForwardLeg i (.failed .linkLost) s))
  | .none => s

/-- The line whose head the packet in transmission on a line is, if it is a forward. -/
def forwardSource (n : LineId) (s : State) : Option LineId :=
  match (s.outbound n).transmission with
  | .forward i _ _ => some i
  | .host _ => none
  | .none => none

end Sys2Proof.Machine
end

