-- ==== Sys2Proof/Machine/StoreOps.lean ====
section
/-! DEFINITION. The intake of the inbound store (3.3, 3.4): allocating, appending, truncating, closing, skipping, cutting and
shedding, one counted character at a time, and the closing at a loss of RUN (R53). -/

namespace Sys2Proof.Machine

/-- Change the youngest entry of an index. -/
def mapLast (f : IndexEntry → IndexEntry) : List IndexEntry → List IndexEntry
  | [] => []
  | [e] => [f e]
  | e :: rest => e :: mapLast f rest

/-- A new entry at the tail (R46), with the sequence number, the write offset and a stamp. -/
def newEntry (st : Store) (stamp : Stamp) (tag : Option Byte) : IndexEntry where
  sequence := st.sequence
  state := .arriving
  offset := st.writeOffset
  stored := 0
  received := 0
  tag := tag
  truncated := false
  endKind := none
  stamp := stamp
  disposition := none
  delivery := .absent
  forward := .absent

/-- The time value as a stamp (R149). -/
def stampNow (s : State) : Stamp := ⟨s.time.epoch, s.time.fine⟩

/-- Whether a first character is skipped: the index is full under DROP_NEW (R54). -/
def skipsPacket (st : Store) : Bool := decide (Config.indexLimit ≤ st.index.length) && st.policy == .dropNew

/-- Allocate an entry at the tail and enter FILLING (R47, R49). -/
def allocate (n : LineId) (tag : Option Byte) (s : State) : State :=
  updStore n
    (fun st => { st with
      index := st.index ++ [newEntry st (stampNow s) tag], sequence := st.sequence + 1, intake := .filling })
    s

/-- Count and report a dropped packet (R54, R55, R57). -/
def countDrop (n : LineId) (sequence : Option (BitVec 16)) (s : State) : State :=
  postNotice (.dropped n sequence ((s.store n).dropped + 1)) (updStore n (fun st => { st with dropped := st.dropped + 1 }) s)

/-- Skip a packet (R54): a data byte begins shedding, an END or ABANDON is the whole packet. -/
def skipPacket (n : LineId) (whole : Bool) (s : State) : State :=
  countDrop n none (updStore n (fun st => { st with intake := if whole then .between else .shedding }) s)

/-- Count one more byte received (R50). -/
def countReceived (e : IndexEntry) : IndexEntry :=
  { e with received := if e.received < Config.lengthLimit then e.received + 1 else e.received }

/-- Store a byte of the OPEN packet (R50). -/
def appendByte (n : LineId) (v : Byte) (s : State) : State :=
  let st := s.store n
  updStore n
    (fun st => { st with
      index := mapLast (fun e => { e with stored := e.stored + 1 }) st.index,
      writeOffset := (st.writeOffset + 1) % st.size, occupied := st.occupied + 1 })
    (updDdr (fun d => d.write (st.address st.writeOffset) v) s)

/-- Cut the OPEN packet (R55): its entry and bytes are released, its number is spent, and the rest is shed. -/
def cutPacket (n : LineId) (e : IndexEntry) (s : State) : State :=
  countDrop n (some e.sequence)
    (updStore n
      (fun st => { st with
        index := st.index.dropLast, occupied := st.occupied - e.stored, writeOffset := e.offset, intake := .shedding })
      s)

/-- A data byte in FILLING (R50, R51, R55). -/
def fillByte (n : LineId) (v : Byte) (s : State) : State :=
  match (s.store n).index.getLast? with
  | some e =>
    let counted := updStore n (fun st => { st with index := mapLast countReceived st.index }) s
    if (s.store n).maxLength ≤ e.stored then
      updStore n (fun st => { st with index := mapLast (fun e => { e with truncated := true }) st.index }) counted
    else if 1 ≤ (s.store n).freeBytes then appendByte n v counted
    else cutPacket n e counted
  | none => s

/-- A data byte handed to the store (3.3). -/
def intakeByte (n : LineId) (v : Byte) (s : State) : State :=
  match (s.store n).intake with
  | .between => if skipsPacket (s.store n) then skipPacket n false s else fillByte n v (allocate n (some v) s)
  | .filling => fillByte n v s
  | .shedding => s

/-- An entry closed with an end kind (R52, R53). -/
def closedEntry (kind : EndKind) (e : IndexEntry) : IndexEntry := { e with state := .complete, endKind := some kind }

/-- Close the OPEN entry and raise the counts (R52, R53, R63). -/
def closePacket (n : LineId) (kind : EndKind) (s : State) : State :=
  let truncated := ((s.store n).index.getLast?.map (·.truncated)).getD false
  updStore n
    (fun st => { st with
      index := mapLast (closedEntry kind) st.index, intake := .between,
      received := st.received + 1, truncated := st.truncated + oneIf truncated,
      abandoned := st.abandoned + oneIf (kind == .abandon) })
    s

/-- An END or ABANDON handed to the store (R52, R54, R56). -/
def intakeClose (n : LineId) (kind : EndKind) (s : State) : State :=
  match (s.store n).intake with
  | .between =>
    if skipsPacket (s.store n) then skipPacket n true s else settleHead n (closePacket n kind (allocate n none s))
  | .filling => settleHead n (closePacket n kind s)
  | .shedding => updStore n (fun st => { st with intake := .between }) s

/-- The store at a loss of RUN (R53, R56): an OPEN entry closes with LINK_LOST, shedding ends. -/
def storeLostRun (n : LineId) (s : State) : State :=
  match (s.store n).intake with
  | .between => s
  | .filling => closePacket n .linkLost s
  | .shedding => updStore n (fun st => { st with intake := .between }) s

end Sys2Proof.Machine
end

