-- ==== Sys2Proof/Machine/LineOps.lean ====
section
/-! DEFINITION. The operations of the line port (chapter 1), credit received (2.4), time marks (chapter 7), entry to FAULTED
(R161) and the part reset (R162). -/

namespace Sys2Proof.Machine

/-! ## Line states -/

/-- The port out of CONNECT and RUN (R19, R21): every timer stopped, alignment given up, MARK_PENDING and READY_DUE clear,
and no mark waiting. -/
def restPort (state : LineState) (p : LinePort) : LinePort :=
  { p with
    state := state, silence := none, handshake := none, quiet := none, aligned := false, markPending := false,
    readyDue := false, markSlot := none, markValue := none }

/-- The credit of a line out of RUN (R40). -/
def noCredit (_ : Credit) : Credit := ⟨0, 0, none⟩

/-- Settle the head whose forward was cut, if one was. -/
def settleSource (source : Option LineId) (s : State) : State :=
  match source with
  | some i => settleHead i s
  | none => s

/-- Loss of RUN on a line (R23): credit, store, transmission, and then the heads that the closing and the cut let move. The port
has already left RUN. -/
def loseRun (n : LineId) (s : State) : State :=
  let source := forwardSource n s
  settleSource source (settleHead n (cutTransmission n (storeLostRun n (updCredit n noCredit s))))

/-- Take a line to a resting state with its notice, and lose RUN if it was in RUN (R18, R21). -/
def leaveLine (n : LineId) (rest : LinePort → LinePort) (notice : Notice) (s : State) : State :=
  let moved := postNotice notice (updPort n rest s)
  if (s.port n).state = .run then loseRun n moved else moved

/-- The port in RECOVER after an error (R18, R19). -/
def erredPort (cause : LineCause) (p : LinePort) : LinePort :=
  { restPort .recover p with quiet := some Config.quietTime, errors := p.errors + 1, lastCause := cause }

/-- A line error (R18). -/
def raiseError (n : LineId) (cause : LineCause) (s : State) : State :=
  leaveLine n (erredPort cause) (.linkState n .recover cause) s

/-- LINK_STOP at the line (R21). -/
def stopLine (n : LineId) (s : State) : State :=
  if (s.port n).state = .off then s
  else leaveLine n (restPort .off) (.linkState n .off .stopped) s

/-- A character that raises no error restarts the silence timer (R14). -/
def restartSilence (n : LineId) (s : State) : State :=
  updPort n (fun p => { p with silence := some Config.silenceTime }) s

/-- The port in CONNECT (R11). -/
def connectedPort (p : LinePort) : LinePort :=
  { p with
    state := .connect, aligned := true, handshake := some Config.handshakeTime, silence := some Config.silenceTime }

/-- Enter CONNECT (R11). -/
def enterConnect (n : LineId) (s : State) : State :=
  postNotice (.linkState n .connect .none) (updPort n connectedPort s)

/-- The port in RUN (R15). -/
def runningPort (p : LinePort) : LinePort := { p with state := .run, readyDue := true, handshake := none }

/-- Enter RUN (R15): the due READY, the notice, credit from 0 with its first offer (R34), and the arbiter (R123). -/
def enterRun (n : LineId) (s : State) : State :=
  arbitrate n (reckonOffer n (updCredit n noCredit (postNotice (.linkState n .run .none) (updPort n runningPort s))))

/-- A GRANT received in RUN (R35, R36). -/
def receiveGrant (n : LineId) (cells : Nat) (s : State) : State :=
  if (s.credit n).allowance + 16 * cells ≤ Config.creditLimit then
    updCredit n (fun c => { c with allowance := c.allowance + 16 * cells }) (restartSilence n s)
  else raiseError n .grantOverflow s

/-- A counted character received in RUN (R28, R29): accepted against outstanding and handed to the store, or
refused. -/
def receiveCounted (n : LineId) (intake : State → State) (s : State) : State :=
  if 1 ≤ (s.credit n).outstanding then
    reckonOffer n (intake (updCredit n (fun c => { c with outstanding := c.outstanding - 1 }) (restartSilence n s)))
  else raiseError n .creditViolation s

/-! ## Time marks (chapter 7) -/

/-- Whether a line takes a relayed mark (R147): in RUN, mark-out on, and not the source. -/
def takesRelay (source : Option LineId) (n : LineId) (p : LinePort) : Bool :=
  p.state == .run && p.markOut && source != some n

/-- Place a value in the mark slot of each line that takes it (R147, R148). -/
def relayMark (source : Option LineId) (v : BitVec 8) (s : State) : State :=
  allLines.foldl
    (fun t n => updPort n (fun p => if takesRelay source n p then { p with markSlot := some v } else p) t) s

/-- Change the epoch at an accepted mark or an internal advance: the fine counter starts again, the value is relayed, and a
MARK notice is posted if the switch is on (R145, R146, R150). -/
def changeEpoch (source : Option LineId) (v : BitVec 8) (skewed : Bool) (s : State) : State :=
  let skew := s.time.skew + oneIf skewed
  let relayed := relayMark source v (updTime (fun t => { t with epoch := v, fine := 0, skew := skew }) s)
  if s.time.notices then postNotice (.mark source v s.time.epoch skewed skew) relayed else relayed

/-- A mark value received in RUN (R144, R145): accepted from the source line, discarded from any other. -/
def receiveMark (n : LineId) (v : Byte) (s : State) : State :=
  if s.time.source = .line n then changeEpoch (some n) v (v != s.time.epoch + 1) s else s

/-! ## Entry to FAULTED (R161, R24) -/

/-- The packet in transmission at entry to FAULTED is cut (R125, R140): a forward's leg fails; a host chain is ended with no SENT
entry, and its slot stays reserved. Nothing is written. -/
def cutSilently (n : LineId) (s : State) : State :=
  match (s.outbound n).transmission with
  | .forward i _ _ => updOutbound n clearTransmission (setForwardLeg i (.failed .linkLost) s)
  | .host _ => updOutbound n clearTransmission s
  | .none => s

/-- A line at entry to FAULTED (R24, R94): to OFF, its head timer stopped, and loss of RUN inside the part. -/
def faultLine (n : LineId) (s : State) : State :=
  let stopped := updHead n (fun h => { h with timer := none })
    (if (s.port n).state = .off then s else updPort n (restPort .off) s)
  if (s.port n).state = .run then cutSilently n (storeLostRun n (updCredit n noCredit stopped)) else stopped

/-- Enter FAULTED (R161). -/
def enterFaulted (cause : FaultCause) (detail : BitVec 8) (s : State) : State :=
  allLines.foldl (fun t n => faultLine n t)
    (updPart (fun p => { p with state := .faulted, cause := cause, detail := detail }) s)

/-! ## Part reset (R162) -/

/-- A part reset: every block at its reset values. The DDR memory keeps its bytes and its codes (R67); what has been put on the
host bus and the wires stays put, and the queue of commands is not the part's. -/
def partReset (s : State) : State :=
  { State.reset with ddr := s.ddr, bus := s.bus, wires := s.wires, pending := s.pending }

end Sys2Proof.Machine
end

