-- ==== Sys2Proof/Machine/Registers.lean ====
section
/-! DEFINITION. The commands of the register window (8.1, 8.2, 11.2): ENABLE, RESET, POWER_ON, ANCHOR_WRITE, REGISTER_WRITE, and
the three forms of a write to POST (R165 to R168, R173). -/

namespace Sys2Proof.Machine

/-- Begin the anchor load (R158): a misaligned address goes to FAULTED at once, with nothing read. The record's 256 bytes are
asked for in one read: R158 leaves the number of reads open (DESIGN CHOICE, log entry 30). -/
def beginLoad (s : State) : State :=
  let loading := updPart (fun p => { p with state := .loading }) s
  if s.part.anchor.toNat % 256 = 0 then issue (.read s.part.anchor 256) loading
  else enterFaulted .anchorInvalid 0x01 loading

/-- A 32-bit write to CONTROL (R157). -/
def writeControl (w : BitVec 32) (s : State) : State :=
  if controlReset w then partReset s
  else if controlEnable w ∧ s.part.state = .halted then beginLoad s
  else s

/-- The anchor address with one of its halves written (R154). -/
def writeAnchorHalf (half : AnchorHalf) (lanes : BitVec 4) (w : BitVec 32) (anchor : HostAddress) : HostAddress :=
  match half with
  | .low => anchor.extractLsb' 32 32 ++ mergeLanes lanes (anchor.extractLsb' 0 32) w
  | .high => mergeLanes lanes (anchor.extractLsb' 32 32) w ++ anchor.extractLsb' 0 32

/-- A write of any width to an anchor register (R154, R199): taken in HALTED, ignored elsewhere. -/
def writeAnchor (half : AnchorHalf) (lanes : BitVec 4) (w : BitVec 32) (s : State) : State :=
  if s.part.state = .halted then updPart (fun p => { p with anchor := writeAnchorHalf half lanes w p.anchor }) s else s

/-- Hand over the notice of a rejected POST (R168). -/
def rejectPost (w : BitVec 32) (reason : PostReason) (producer consumer : BitVec 16) (s : State) : State :=
  postNotice (.postRejected (postRingField w) reason (postIndex w) (postArmRequest w) producer consumer) s

/-- The readers a POST to a host-written ring opens its records to (R166): the command unit (R178) and the outbound engine (R118)
look at once; a delivery engine resumes by DELIVERY_RECORD_RESUME (R107). -/
def wakeReader (r : RingId) (s : State) : State :=
  match r with
  | .command => pollCommand s
  | .send n => fetchSend n s
  | .fill _ => s
  | .notice => s
  | .completion _ => s

/-- The count a host-written ring would have (R166). -/
def newCount (g : Ring) (index : BitVec 16) : Nat := (index - g.consumer).toNat

/-- A POST to a host-written ring (R166). -/
def postToHostRing (r : RingId) (w : BitVec 32) (s : State) : State :=
  let g := s.ring r
  if newCount g (postIndex w) ≤ g.size ∧ g.count ≤ newCount g (postIndex w) then
    wakeReader r (updRing r (fun g => { g with producer := postIndex w }) s)
  else rejectPost w .countRange g.producer g.consumer s

/-- The arm request of an accepted POST, after the consumer index has moved (R173). -/
def armRing (p : PartRing) (s : State) : State :=
  if 0 < (s.ring (partRingId p)).count then sendVector p s else updSlots p (fun a => { a with armed := true }) s

/-- How far a POST would advance a part-written ring (R167). -/
def advanceOf (g : Ring) (index : BitVec 16) : Nat := (index - g.consumer).toNat

/-- A POST to a part-written ring (R167), with its arm request (R173). The slots it frees go to waiting requests by SLOT_GRANTED and
to held notices by PENDING_NOTICE_WRITE. -/
def postToPartRing (p : PartRing) (w : BitVec 32) (s : State) : State :=
  let g := s.ring (partRingId p)
  if advanceOf g (postIndex w) ≤ g.count then
    let moved := updRing (partRingId p) (fun g => { g with consumer := postIndex w }) s
    if postArmRequest w then armRing p moved else moved
  else rejectPost w .pastProducer g.producer g.consumer s

/-- A 32-bit write to POST (R165): ignored outside RUNNING (R198). -/
def writePost (w : BitVec 32) (s : State) : State :=
  whenRunning s
    (match postRing w with
     | some r =>
       match partRingOf r with
       | some p => postToPartRing p w s
       | none => postToHostRing r w s
     | none => rejectPost w .noRing 0 0 s)

/-- A write to the register window (R154): IDENT and STATUS ignore it, and CONTROL and POST ignore a narrow one. -/
def writeRegister (register : WindowRegister) (lanes : BitVec 4) (w : BitVec 32) (s : State) : State :=
  match register with
  | .ident => s
  | .status => s
  | .control => if lanes = 15 then writeControl w s else s
  | .post => if lanes = 15 then writePost w s else s
  | .anchorLow => writeAnchor .low lanes w s
  | .anchorHigh => writeAnchor .high lanes w s

/-! ## The window by offset (R154) -/

/-- The offset of a register in the window (R154). -/
def windowOffset : WindowRegister → Nat
  | .ident => 0x00
  | .control => 0x04
  | .status => 0x08
  | .anchorLow => 0x0C
  | .anchorHigh => 0x10
  | .post => 0x14

/-- The registers of the window, by rising offset. -/
def windowRegisters : List WindowRegister := [.ident, .control, .status, .anchorLow, .anchorHigh, .post]

/-- The register that holds the byte at an offset of the window, and the byte's lane in it. -/
def windowByte (offset : Nat) : Option (WindowRegister × Nat) :=
  windowRegisters[offset / 4]?.map (fun r => (r, offset % 4))

/-- A read of any width within the window: the addressed bytes, lowest offset first (R154); none beyond its 24 bytes. -/
def readWindow (s : State) (offset width : Nat) : Option (List Byte) :=
  (List.range width).mapM (fun k => (windowByte (offset + k)).map (fun p => readRegisterByte s p.1 p.2))

/-- The command that a write to a register is, by the lanes written and the word (R154, R157, R165). -/
def writeCommand (register : WindowRegister) (lanes : BitVec 4) (w : BitVec 32) : Instr :=
  match register with
  | .ident => .registerWrite .ident lanes w
  | .status => .registerWrite .status lanes w
  | .anchorLow => .anchorWrite .low lanes w
  | .anchorHigh => .anchorWrite .high lanes w
  | .control =>
    if lanes = 15 ∧ controlReset w = true then .reset w
    else if lanes = 15 ∧ controlEnable w = true then .enable w
    else .registerWrite .control lanes w
  | .post =>
    if lanes = 15 then
      match (postRing w).bind partRingOf with
      | some _ => if postArmRequest w then .postArm w else .postPartRing w
      | none => .postHostRing w
    else .registerWrite .post lanes w

/-- The byte that a write of bytes at an offset places at a lane of a register, if it covers it. -/
def writtenByte (offset : Nat) (bytes : List Byte) (r : WindowRegister) (lane : Nat) : Option Byte :=
  if offset ≤ windowOffset r + lane then bytes[windowOffset r + lane - offset]? else none

/-- The lanes of a register that a write covers. -/
def writtenLanes (offset : Nat) (bytes : List Byte) (r : WindowRegister) : BitVec 4 :=
  let covers := fun lane => BitVec.ofBool (writtenByte offset bytes r lane).isSome
  covers 3 ++ covers 2 ++ covers 1 ++ covers 0

/-- The word a write presents to a register, 0 in the lanes it does not cover. -/
def writtenWord (offset : Nat) (bytes : List Byte) (r : WindowRegister) : BitVec 32 :=
  let byte := fun lane => (writtenByte offset bytes r lane).getD 0
  byte 3 ++ byte 2 ++ byte 1 ++ byte 0

/-- The commands of a write of any width at an offset of the window: one for each register it covers, lowest offset first. That a
write across registers is taken so is the model's choice (DESIGN CHOICE, log entry 31). -/
def windowWrite (offset : Nat) (bytes : List Byte) : List Instr :=
  (windowRegisters.filter (fun r => writtenLanes offset bytes r != 0)).map
    (fun r => writeCommand r (writtenLanes offset bytes r) (writtenWord offset bytes r))

/-- ENABLE (R157, R158). -/
def execEnable (value : BitVec 32) (s : State) : Host.Outcome State Fault Refusal := .next (writeControl value s)

/-- RESET (R162). -/
def execReset (value : BitVec 32) (s : State) : Host.Outcome State Fault Refusal :=
  .next (writeRegister .control 15 value s)

/-- POWER_ON (R162, R44): a part reset, and every DDR word sound. -/
def execPowerOn (s : State) : Host.Outcome State Fault Refusal :=
  .next (updDdr (fun d => { d with badWords := [] }) (partReset s))

/-- ANCHOR_WRITE (R154, R199). -/
def execAnchorWrite (half : AnchorHalf) (lanes : BitVec 4) (value : BitVec 32) (s : State) :
    Host.Outcome State Fault Refusal :=
  .next (writeAnchor half lanes value s)

/-- REGISTER_WRITE (R154). -/
def execRegisterWrite (register : WindowRegister) (lanes : BitVec 4) (value : BitVec 32) (s : State) :
    Host.Outcome State Fault Refusal :=
  .next (writeRegister register lanes value s)

/-- POST_HOST_RING (R166, R168). -/
def execPostHostRing (value : BitVec 32) (s : State) : Host.Outcome State Fault Refusal := .next (writePost value s)

/-- POST_PART_RING (R167, R168). -/
def execPostPartRing (value : BitVec 32) (s : State) : Host.Outcome State Fault Refusal :=
  .next (writeRegister .post 15 value s)

/-- POST_ARM (R173): the POST carries its arm request. -/
def execPostArm (value : BitVec 32) (s : State) : Host.Outcome State Fault Refusal :=
  .next (writePost (value ||| 0x00100000) s)

end Sys2Proof.Machine
end

