-- ==== Sys2Proof/Machine/Rings.lean ====
section
/-! DEFINITION. The events of the ring unit (chapter 8): the anchor load's end, the grant of a waiting reservation, and the
writing of held notices. -/

namespace Sys2Proof.Machine

/-- The first check of an anchor record that fails, as a fault detail (R159, 10.2). -/
def anchorFailure (a : AnchorRecord) : Option (BitVec 8) :=
  if anchorFormat a ≠ 1 then some 0x02
  else
    match allRings.find? (fun r => !anchorRingGood a r) with
    | some r => some (BitVec.ofNat 8 (0x40 + ringNumber r))
    | none => if (anchorProgress a).toNat % 64 ≠ 0 then some 0x03 else none

/-- One value for each line, made from the line. -/
def perLineOf {α : Type} (f : LineId → α) : PerLine α := ⟨f .l0, f .l1, f .l2, f .l3⟩

/-- The ring table an anchor record gives, every index 0 (R159). -/
def anchorRings (a : AnchorRecord) : RingTable where
  command := anchorRing a .command
  notice := anchorRing a .notice
  send := perLineOf (fun n => anchorRing a (.send n))
  fill := perLineOf (fun n => anchorRing a (.fill n))
  completion := perLineOf (fun n => anchorRing a (.completion n))

/-- Enter RUNNING with a valid anchor record (R159): the rings and the progress address recorded, and the whole progress
block written with zeros. -/
def enterRunning (a : AnchorRecord) (s : State) : State :=
  issue (.progressBlock (anchorProgress a))
    (updPart (fun p => { p with state := .running, progress := anchorProgress a }) { s with rings := anchorRings a })

/-- Validate an anchor record (R159). -/
def validateAnchor (a : AnchorRecord) (s : State) : State :=
  match anchorFailure a with
  | some detail => enterFaulted .anchorInvalid detail s
  | none => enterRunning a s

/-- ANCHOR_READ_DONE (R158, R159): outside LOADING the data are discarded. -/
def execAnchorReadDone (data : Option AnchorRecord) (s : State) : Host.Outcome State Fault Refusal :=
  .next
    (if s.part.state = .loading then
      match data with
      | some a => validateAnchor a s
      | none => enterFaulted .anchorRead 0 s
     else s)

/-- Grant the request lodged earliest on a completion ring (R171), and let its engine go on. -/
def grantCompletion (n : LineId) (s : State) : State :=
  match (s.slot (.completion n)).waiting with
  | q :: rest =>
    if 1 ≤ freeSlots (.completion n) s then
      let granted := reserveSlot (.completion n) (updSlots (.completion n) (fun a => { a with waiting := rest }) s)
      match q with
      | .delivery => settleHead n (resumeDelivery n granted)
      | .outbound => resumeOutbound n granted
    else s
  | [] => s

/-- Grant the command unit's waiting request (R176, R178). -/
def grantCommand (s : State) : State :=
  if s.command.state = .slotWait ∧ commandSlotFree s = true then fetchCommand s else s

/-- SLOT_GRANTED (R171). -/
def execSlotGranted (ring : PartRing) (s : State) : Host.Outcome State Fault Refusal :=
  .next (whenRunning s
    (match ring with
     | .notice => grantCommand s
     | .completion n => grantCompletion n s))

/-- PENDING_NOTICE_WRITE (R176). -/
def execPendingNoticeWrite (s : State) : Host.Outcome State Fault Refusal := .next (whenRunning s (writeHeld s.held s))

end Sys2Proof.Machine
end

