-- ==== Sys2Proof/Machine/Commands.lean ====
section
/-! DEFINITION. The command unit (chapter 9): taking a command, its checks (R179, R183), and the ten commands. The state checks
are made when the command is taken and again in the step that carries it out, so that a check and its action are one step
(R185, R189). -/

namespace Sys2Proof.Machine

/-! ## Checks (R179) -/

/-- A refusal (R179): the status, and the result bytes of a REGION_OVERLAP (R183). -/
structure CommandRefusal where
  status : CommandStatus
  result : List Byte
  deriving DecidableEq, Repr

/-- A refusal with a status when a check fails. -/
def refuseIf (fails : Bool) (status : CommandStatus) : Option CommandRefusal := if fails then some ⟨status, []⟩ else none

/-- The BAD_FIELD checks of LINK_CONFIGURE (R183). A head limit is always in range (10.4). -/
def configFieldsGood (e : Record) : Bool :=
  decide (16 ≤ configMaxLength e) && isChoice (recordByte e 18) && isChoice (recordByte e 19) && isChoice (recordByte e 20)
    && isChoice (recordByte e 21) && isChoice (recordByte e 22) && decide (10 ≤ configRate e)
    && decide (configRate e ≤ 400) && configRate e % 10 == 0

/-- The REGION_RANGE checks of LINK_CONFIGURE (R64, R183). -/
def configRegionGood (e : Record) : Bool :=
  configBase e % Config.regionUnit == 0 && decide (Config.regionUnit ≤ configSize e)
    && decide (configSize e ≤ Config.regionLimit) && configSize e % Config.regionUnit == 0
    && decide (configBase e + configSize e ≤ Config.ddrSize)

/-- The checks of TABLE_WRITE and TABLE_READ (R70, R190). -/
def tableRangeGood (e : Record) : Bool :=
  decide (1 ≤ tableCount e) && decide (tableCount e ≤ 16) && decide (tableFirst e ≤ 256)
    && decide (tableFirst e + tableCount e ≤ 257)

/-- The checks of TIME_SET (R151). -/
def timeFieldsGood (e : Record) : Bool :=
  (timeSourceOf (recordByte e 5)).isSome && decide (1 ≤ timePeriod e) && isChoice (recordByte e 8)

/-- The parameter checks, in order (R179, order 3). -/
def checkParameters (k : CommandKind) (e : Record) : Option CommandRefusal :=
  match k with
  | .linkConfigure =>
    (refuseIf (!configFieldsGood e) .badField).or (refuseIf (!configRegionGood e) .regionRange)
  | .linkHold => refuseIf (!isChoice (recordByte e 4)) .badField
  | .tableWrite => refuseIf (!tableRangeGood e) .badField
  | .tableRead => refuseIf (!tableRangeGood e) .badField
  | .timeSet => refuseIf (!timeFieldsGood e) .badField
  | .queryLink => refuseIf (!(isChoice (recordByte e 4) && isChoice (recordByte e 5))) .badField
  | .linkStart => none
  | .linkStop => none
  | .linkFlush => none
  | .sendCancel => none

/-- Whether a region overlaps the region of another configured line (R64). -/
def overlaps (base size : Nat) (n m : LineId) (s : State) : Bool :=
  m != n && (s.port m).configured && decide (base < (s.store m).base + (s.store m).size)
    && decide ((s.store m).base < base + size)

/-- The lowest-numbered configured line whose region overlaps (R183). -/
def overlappingLine (base size : Nat) (n : LineId) (s : State) : Option LineId :=
  allLines.find? (fun m => overlaps base size n m s)

/-- The refusal of an overlapping region, which names the line (R183). -/
def checkOverlap (n : LineId) (e : Record) (s : State) : Option CommandRefusal :=
  match overlappingLine (configBase e) (configSize e) n s with
  | some m => some ⟨.regionOverlap, [byteOf (lineNumber m)]⟩
  | none => none

/-- The state checks, in order (R179, order 4). -/
def checkState (k : CommandKind) (n : LineId) (e : Record) (s : State) : Option CommandRefusal :=
  match k with
  | .linkConfigure =>
    (refuseIf (decide ((s.port n).state ≠ .off)) .lineNotOff).or
      ((refuseIf (!(s.store n).index.isEmpty) .storeNotEmpty).or (checkOverlap n e s))
  | .linkStart =>
    (refuseIf (!(s.port n).configured) .notConfigured).or (refuseIf (decide ((s.port n).state ≠ .off)) .lineNotOff)
  | .sendCancel =>
    (refuseIf (!(s.port n).configured) .notConfigured).or (refuseIf (decide ((s.port n).state = .run)) .lineRunning)
  | .linkStop => none
  | .linkFlush => none
  | .linkHold => none
  | .tableWrite => none
  | .tableRead => none
  | .timeSet => none
  | .queryLink => none

/-- The checks of a command entry, in order, and the first that fails (R179). -/
def checkCommand (e : Record) (s : State) : Option CommandRefusal :=
  match commandKind (opcode e) with
  | none => some ⟨.unknownOpcode, []⟩
  | some k =>
    match commandLine e with
    | some n => (checkParameters k e).or (checkState k n e s)
    | none => if carriesLine k then some ⟨.badLine, []⟩ else checkParameters k e

/-! ## Taking a command (R178) -/

/-- The command entry has been read: it is taken, and refused if a check fails (R178, R179). -/
def takeCommand (e : Record) (s : State) : State :=
  let taken := updCommand
    (fun c => { c with state := .execute, current := some ⟨(s.ring .command).consumer, e⟩, wait := .none })
    (takeRecord .command s)
  match checkCommand e taken with
  | some r => endCommand r.status r.result taken
  | none => taken

/-- COMMAND_READ_DONE (R178, R179): a failed read enters FAULTED with detail 0. -/
def execCommandReadDone (entry : Option Record) (s : State) : Host.Outcome State Fault Refusal :=
  .next (whenRunning s
    (if s.command.state = .fetch then
      match entry with
      | some e => takeCommand e s
      | none => enterFaulted .ringRead 0 s
     else s))

/-- The entry of the current command, if the unit is about to carry out a command of this kind (R180). -/
def currentOf (k : CommandKind) (s : State) : Option Record :=
  match s.command.current with
  | some c =>
    if s.part.state = .running ∧ s.command.state = .execute ∧ s.command.wait = .none ∧ commandKind (opcode c.entry) = some k
    then some c.entry else none
  | none => none

/-- Carry out the current command of a kind on its line (R179, R180): refused if a check fails now, done otherwise. -/
def carryOut (k : CommandKind) (s : State) (done : LineId → Record → State) : State :=
  match currentOf k s with
  | some e =>
    match checkCommand e s with
    | some r => endCommand r.status r.result s
    | none => done ((commandLine e).getD .l0) e
  | none => s

/-! ## LINK_CONFIGURE (R184) -/

/-- The line port configured (R7). -/
def configuredPort (e : Record) (p : LinePort) : LinePort :=
  { p with
    initiative := configInitiative e, autoRestart := configAutoRestart e, rate := configRate e, markOut := configMarkOut e,
    configured := true, errors := 0, lastCause := .none }

/-- The store configured (R66). -/
def configuredStore (e : Record) (st : Store) : Store :=
  { st with
    base := configBase e, size := configSize e, maxLength := configMaxLength e, policy := configPolicy e,
    writeOffset := 0, readOffset := 0, occupied := 0, intake := .between, sequence := 0,
    received := 0, truncated := 0, abandoned := 0, dropped := 0 }

/-- The head engine configured (R73). -/
def configuredHead (e : Record) (h : HeadEngine) : HeadEngine :=
  { h with badRule := configBadRule e, limit := configLimit e, discardedCount := 0, expiredCount := 0 }

/-- Configure a line (R184): its port, store and head engine in one step; the outbound engine may then take records (R118). -/
def configureLine (n : LineId) (e : Record) (s : State) : State :=
  fetchSend n
    (updHead n (configuredHead e) (updStore n (configuredStore e) (updPort n (configuredPort e) s)))

/-- LINK_CONFIGURE (R183, R184). -/
def execLinkConfigure (s : State) : Host.Outcome State Fault Refusal :=
  .next (carryOut .linkConfigure s (fun n e => endCommand .ok [] (configureLine n e s)))

/-! ## LINK_START, LINK_STOP, LINK_FLUSH, LINK_HOLD -/

/-- Enter LISTEN (R9, R20). -/
def enterListen (n : LineId) (s : State) : State :=
  postNotice (.linkState n .listen .none) (updPort n (restPort .listen) s)

/-- LINK_START (R185). -/
def execLinkStart (s : State) : Host.Outcome State Fault Refusal :=
  .next (carryOut .linkStart s (fun n _ => endCommand .ok [] (enterListen n s)))

/-- LINK_STOP (R186): the result is the line state before. -/
def execLinkStop (s : State) : Host.Outcome State Fault Refusal :=
  .next (carryOut .linkStop s (fun n _ => endCommand .ok [lineStateCode (s.port n).state] (stopLine n s)))

/-- LINK_FLUSH (R187). -/
def execLinkFlush (s : State) : Host.Outcome State Fault Refusal :=
  .next (carryOut .linkFlush s (fun n _ => flushStore n s))

/-- LINK_HOLD (R188): the result is the hold value before. -/
def execLinkHold (s : State) : Host.Outcome State Fault Refusal :=
  .next (carryOut .linkHold s (fun n e =>
    endCommand .ok [flagByte (s.head n).hold] (if holdValue e then setHold n s else clearHold n s)))

/-! ## SEND_CANCEL -/

/-- SEND_CANCEL (R189): the command waits for the cancel, which ends it when it is done. -/
def execSendCancel (s : State) : Host.Outcome State Fault Refusal :=
  .next (carryOut .sendCancel s (fun n _ => beginCancel n (updCommand (fun c => { c with wait := .cancel n }) s)))

/-! ## TABLE_WRITE, TABLE_READ -/

/-- Replace entries of a forward table from a number on (R70). -/
def writeEntries : Nat → List Disposition → Vector Disposition 257 → Vector Disposition 257
  | _, [], t => t
  | k, d :: rest, t => writeEntries (k + 1) rest (t.setIfInBounds k d)

/-- The entry values of a TABLE_WRITE (10.4). -/
def tableValues (e : Record) : List Disposition :=
  (List.range (tableCount e)).map (fun k => tableEntryOf (recordByte e (8 + k)))

/-- TABLE_WRITE (R190). -/
def execTableWrite (s : State) : Host.Outcome State Fault Refusal :=
  .next (carryOut .tableWrite s (fun n e =>
    endCommand .ok [] (updHead n (fun h => { h with table := writeEntries (tableFirst e) (tableValues e) h.table }) s)))

/-- The entries a TABLE_READ reports (R191). -/
def tableReadResult (h : HeadEngine) (e : Record) : List Byte :=
  (List.range (tableCount e)).map (fun k => tableEntryByte (tableEntry h (tableFirst e + k)))

/-- TABLE_READ (R191). -/
def execTableRead (s : State) : Host.Outcome State Fault Refusal :=
  .next (carryOut .tableRead s (fun n e => endCommand .ok (tableReadResult (s.head n) e) s))

/-! ## TIME_SET -/

/-- The result of a TIME_SET: the time base before it (R151, 10.6). -/
def timeResult (t : TimeUnit) : List Byte :=
  [t.epoch, timeSourceCode t.source, 0, 0] ++ le32 (t.fine.setWidth 32) ++ le32 t.skew

/-- The time unit a TIME_SET leaves (R151). -/
def timeAfterSet (e : Record) : TimeUnit where
  epoch := timeEpoch e
  fine := 0
  source := timeSource e
  period := timePeriod e
  timer := if timeSource e = .internal then some (timePeriod e * 1000) else none
  notices := timeNotices e
  skew := 0

/-- TIME_SET (R192). -/
def execTimeSet (s : State) : Host.Outcome State Fault Refusal :=
  .next (carryOut .timeSet s (fun _ e => endCommand .ok (timeResult s.time) (updTime (fun _ => timeAfterSet e) s)))

/-! ## QUERY_LINK -/

/-- The figures of section LINE (R193, 10.6). -/
def lineFigures (n : LineId) (s : State) : List Byte :=
  [lineStateCode (s.port n).state, flagByte (s.port n).configured, flagByte (s.head n).hold, lineCauseCode (s.port n).lastCause]
    ++ le16 (BitVec.ofNat 16 (s.credit n).outstanding) ++ le16 (BitVec.ofNat 16 (s.credit n).allowance)
    ++ le32 (BitVec.ofNat 32 (s.store n).occupied) ++ le16 (BitVec.ofNat 16 (s.store n).index.length) ++ [0, 0]
    ++ le32 (s.port n).errors

/-- The figures of section PACKETS (R193, 10.6). -/
def packetFigures (n : LineId) (s : State) : List Byte :=
  le32 (s.store n).received ++ le32 (s.store n).truncated ++ le32 (s.store n).abandoned ++ le32 (s.store n).dropped
    ++ le32 (s.head n).discardedCount ++ le32 (s.head n).expiredCount

/-- Clear the link-error counter (R193). -/
def clearLineCounts (n : LineId) (s : State) : State := updPort n (fun p => { p with errors := 0 }) s

/-- Clear the six packet counts (R193). -/
def clearPacketCounts (n : LineId) (s : State) : State :=
  updHead n (fun h => { h with discardedCount := 0, expiredCount := 0 })
    (updStore n (fun st => { st with received := 0, truncated := 0, abandoned := 0, dropped := 0 }) s)

/-- QUERY_LINK (R193): the figures are reported, and the section's counts then cleared if asked. -/
def execQueryLink (s : State) : Host.Outcome State Fault Refusal :=
  .next (carryOut .queryLink s (fun n e =>
    if queryPackets e then
      endCommand .ok (packetFigures n s) (if queryClear e then clearPacketCounts n s else s)
    else endCommand .ok (lineFigures n s) (if queryClear e then clearLineCounts n s else s)))

end Sys2Proof.Machine
end

