-- ==== Sys2Proof/Machine/LineEvents.lean ====
section
/-! DEFINITION. The events of a line port (chapters 1 and 2): alignment, characters received in CONNECT and in RUN, the three line
timers, and the transmit character boundary. -/

namespace Sys2Proof.Machine

/-! ## Reception -/

/-- CHARACTER_ALIGN (R10): a well-formed HELLO or READY found in LISTEN is taken, and the line enters CONNECT; other bits have
no effect. -/
def execCharacterAlign (line : LineId) (c : Character) (s : State) : Host.Outcome State Fault Refusal :=
  .next (whenRunning s
    (if (s.port line).state = .listen
        ∧ (decodeCharacter c = .symbol .hello ∨ decodeCharacter c = .symbol .ready) then
      enterConnect line s
     else s))

/-- Set MARK_PENDING (R3). -/
def setMarkPending (n : LineId) (pending : Bool) (s : State) : State := updPort n (fun p => { p with markPending := pending }) s

/-- A symbol received in CONNECT, not under MARK_PENDING (R12). -/
def connectSymbol (n : LineId) (x : Symbol) (s : State) : State :=
  match x with
  | .ready => enterRun n s
  | .grant k => receiveGrant n k (enterRun n s)
  | .mark => setMarkPending n true s
  | .null => s
  | .hello => s
  | .close => s
  | .abandon => s

/-- A character received in CONNECT (R12): a failure, or a control character under MARK_PENDING (R3), is CODE_ERROR. -/
def receiveInConnect (n : LineId) (x : Received) (s : State) : State :=
  match x with
  | .failure => raiseError n .codeError s
  | .data _ => setMarkPending n false (restartSilence n s)
  | .symbol y =>
    if (s.port n).markPending then raiseError n .codeError s else connectSymbol n y (restartSilence n s)

/-- RX_CONNECT_CHAR (R12). -/
def execRxConnectChar (line : LineId) (c : Character) (s : State) : Host.Outcome State Fault Refusal :=
  .next (whenRunning s
    (if (s.port line).state = .connect then receiveInConnect line (decodeCharacter c) s else s))

/-- A symbol received in RUN, not under MARK_PENDING (R16). -/
def runSymbol (n : LineId) (x : Symbol) (s : State) : State :=
  match x with
  | .null => restartSilence n s
  | .ready => restartSilence n s
  | .hello => raiseError n .remoteRestart s
  | .grant k => receiveGrant n k s
  | .close => receiveCounted n (intakeClose n .good) s
  | .abandon => receiveCounted n (intakeClose n .abandon) s
  | .mark => setMarkPending n true (restartSilence n s)

/-- A character received in RUN (R16, R3). -/
def receiveInRun (n : LineId) (x : Received) (s : State) : State :=
  match x with
  | .failure => raiseError n .codeError s
  | .data v =>
    if (s.port n).markPending then receiveMark n v (setMarkPending n false (restartSilence n s))
    else receiveCounted n (intakeByte n v) s
  | .symbol y => if (s.port n).markPending then raiseError n .codeError s else runSymbol n y s

/-- RX_RUN_CHAR (R16). -/
def execRxRunChar (line : LineId) (c : Character) (s : State) : Host.Outcome State Fault Refusal :=
  .next (whenRunning s
    (if (s.port line).state = .run then receiveInRun line (decodeCharacter c) s else s))

/-! ## Timers -/

/-- HANDSHAKE_TIMEOUT (R13): the handshake timer, run down in CONNECT, expires. A character taken first has stopped it, and no
expiry happens. -/
def execHandshakeTimeout (line : LineId) (s : State) : Host.Outcome State Fault Refusal :=
  .next (whenRunning s
    (if (s.port line).state = .connect ∧ (s.port line).handshake = some 0 then
      raiseError line .handshakeTimeout s
     else s))

/-- SILENCE (R14): the silence timer, run down in CONNECT or RUN, expires. A character taken first has restarted it, and no expiry
happens. -/
def execSilence (line : LineId) (s : State) : Host.Outcome State Fault Refusal :=
  .next (whenRunning s
    (if ((s.port line).state = .connect ∨ (s.port line).state = .run) ∧ (s.port line).silence = some 0 then
      raiseError line .silence s
     else s))

/-- The quiet time is over (R20). -/
def endQuiet (n : LineId) (s : State) : State :=
  if (s.port n).autoRestart then enterListen n s
  else postNotice (.linkState n .off .none) (updPort n (restPort .off) s)

/-- QUIET_TIMER_EXPIRY (R20): the quiet timer has run down in RECOVER. -/
def execQuietTimerExpiry (line : LineId) (s : State) : Host.Outcome State Fault Refusal :=
  .next (whenRunning s
    (if (s.port line).state = .recover ∧ (s.port line).quiet = some 0 then endQuiet line s else s))

/-! ## Transmission (R17) -/

/-- Case 4 (R33): GRANT(k) is sent, outstanding rises by 16k, and the offer is worked out again. -/
def sendGrant (n : LineId) (k : Nat) (s : State) : State :=
  reckonOffer n
    (updCredit n (fun c => { c with outstanding := c.outstanding + 16 * k }) (sendCharacter n (symbolCharacter (.grant k)) s))

/-- One character of allowance is spent (R37). -/
def spendAllowance (n : LineId) (s : State) : State := updCredit n (fun c => { c with allowance := c.allowance - 1 }) s

/-- A data byte of the packet in transmission is taken from the staging buffer (R125, R126). -/
def sendByte (n : LineId) (v : Byte) (s : State) : State :=
  issueReads n
    (updOutbound n
      (fun o => { o with bytesSent := o.bytesSent + 1, staging := { o.staging with bytes := o.staging.bytes.tail } })
      (spendAllowance n (sendCharacter n (dataCharacter v) s)))

/-- The symbol that closes a packet (R5). -/
def closingSymbol : EndKind → Symbol
  | .good => .close
  | .abandon => .abandon
  | .linkLost => .abandon

/-- The closing character is taken (R130). -/
def sendClosing (n : LineId) (s : State) : State :=
  endTransmission n (spendAllowance n (sendCharacter n (symbolCharacter (closingSymbol (closingKind n s))) s))

/-- Cases 5 and 6 (R17, R125): the next packet character at hand, under allowance, or NULL. -/
def sendPacketOrNull (n : LineId) (s : State) : State :=
  let o := s.outbound n
  let null := sendCharacter n (symbolCharacter .null) s
  if o.transmission = .none ∨ (s.credit n).allowance = 0 then null
  else
    match o.staging.bytes with
    | v :: _ => sendByte n v s
    | [] => if o.staging.spent then sendClosing n s else null

/-- The first case of R17 that applies at a boundary in RUN. -/
def runBoundary (n : LineId) (s : State) : State :=
  match (s.port n).markValue with
  | some v => updPort n (fun p => { p with markValue := none }) (sendCharacter n (dataCharacter v) s)
  | none =>
    if (s.port n).readyDue then
      updPort n (fun p => { p with readyDue := false }) (sendCharacter n (symbolCharacter .ready) s)
    else
      match (s.port n).markSlot with
      | some v =>
        updPort n (fun p => { p with markSlot := none, markValue := some v }) (sendCharacter n (symbolCharacter .mark) s)
      | none =>
        match (s.credit n).offer with
        | some k => sendGrant n k s
        | none => sendPacketOrNull n s

/-- CHARACTER_BOUNDARY (R17): in RUN as R17 orders; in LISTEN an ACTIVE port sends HELLO (R10); in CONNECT READY (R11); in OFF and
RECOVER nothing (R8, R19). -/
def execCharacterBoundary (line : LineId) (s : State) : Host.Outcome State Fault Refusal :=
  .next (whenRunning s
    (match (s.port line).state with
     | .off => s
     | .recover => s
     | .listen => if (s.port line).initiative = .active then sendCharacter line (symbolCharacter .hello) s else s
     | .connect => sendCharacter line (symbolCharacter .ready) s
     | .run => runBoundary line s))

end Sys2Proof.Machine
end

