-- ==== Sys2Proof/Machine/EngineEvents.lean ====
section
/-! DEFINITION. The events of the head engines (R86), the delivery engines (chapter 5) and the outbound engines (chapter 6), and
of the DDR memory (R44). -/

namespace Sys2Proof.Machine

/-- HEAD_TIMER_EXPIRY (R86, R87): the head timer has run down. A delivery whose fill record was posted first resumes first. A
leg's end taken first has retired the head and stopped the timer, or started the next head's in full, and no expiry happens
(R88). -/
def execHeadTimerExpiry (line : LineId) (s : State) : Host.Outcome State Fault Refusal :=
  .next (whenRunning s
    (if (s.head line).timer = some 0 ∧ (headEntry line s).isSome = true then
      expireHead line (resumeRecordWait line s)
     else s))

/-- DELIVERY_RECORD_RESUME (R107). -/
def execDeliveryRecordResume (line : LineId) (s : State) : Host.Outcome State Fault Refusal :=
  .next (whenRunning s (settleHead line (resumeRecordWait line s)))

/-- A fill record read returns in FETCH (R101). -/
def takeFill (n : LineId) (r : Record) (s : State) : State :=
  settleHead n (judgeFill n (fillRecordOf (s.ring (.fill n)).consumer r) (takeRecord (.fill n) s))

/-- FILL_RECORD_READ_DONE (R101): a failed read enters FAULTED with the ring's number. -/
def execFillRecordReadDone (line : LineId) (data : Option Record) (s : State) : Host.Outcome State Fault Refusal :=
  .next (whenRunning s
    (if (s.delivery line).state = .fetch then
      match data with
      | some r => takeFill line r s
      | none => enterFaulted .ringRead (byteOf (ringNumber (.fill line))) s
     else s))

/-- The write into the current buffer completes in WRITE (R104). -/
def finishBuffer (n : LineId) (s : State) : State :=
  match headEntry n s, (s.delivery n).current with
  | some e, some c => settleHead n (afterBuffer n (writeBuffer n e c s))
  | _, _ => s

/-- DELIVERY_BUFFER_DONE (R104). -/
def execDeliveryBufferDone (line : LineId) (s : State) : Host.Outcome State Fault Refusal :=
  .next (whenRunning s (if (s.delivery line).state = .write then finishBuffer line s else s))

/-- A send record read returns in FETCH (R118). -/
def takeSend (n : LineId) (r : Record) (s : State) : State :=
  acceptSendRecord n (sendRecordOf (s.ring (.send n)).consumer r) (takeRecord (.send n) s)

/-- SEND_RECORD_READ_DONE (R118): a failed read enters FAULTED with the ring's number. -/
def execSendRecordReadDone (line : LineId) (data : Option Record) (s : State) : Host.Outcome State Fault Refusal :=
  .next (whenRunning s
    (if (s.outbound line).fetch = .fetch then
      match data with
      | some r => takeSend line r s
      | none => enterFaulted .ringRead (byteOf (ringNumber (.send line))) s
     else s))

/-- Take a failure of the packet in transmission (R131, R132): its staging buffer and its reads are discarded. -/
def takeFailure (n : LineId) (f : Failure) (s : State) : State :=
  updOutbound n (fun o => { o with failure := f, staging := Staging.empty }) s

/-- Record the bytes of a read that has returned, at its place in packet order. -/
def recordRead : Nat → List Byte → List StagedRead → List StagedRead
  | _, _, [] => []
  | 0, d, r :: rest => { r with data := some d } :: rest
  | k + 1, d, r :: rest => r :: recordRead k d rest

/-- The staging buffer after a read of host memory has returned its bytes (R126). -/
def stageReturned (place : Nat) (d : List Byte) (g : Staging) : Staging :=
  let next := absorbReads g.bytes (recordRead place d g.reads)
  { g with bytes := next.1, reads := next.2 }

/-- A read of host packet bytes returns (R126, R131): a return whose length is not the read's is no return of it. -/
def hostDataReturned (n : LineId) (place : Nat) (data : Option (List Byte)) (s : State) : State :=
  match (s.outbound n).staging.reads[place]? with
  | some r =>
    if r.data.isSome then s
    else
      match data with
      | none => takeFailure n .hostReadError s
      | some d =>
        if d.length = r.length then
          issueReads n (updOutbound n (fun o => { o with staging := stageReturned place d o.staging }) s)
        else s
  | none => s

/-- HOST_DATA_READ_DONE (R126). -/
def execHostDataReadDone (line : LineId) (place : Nat) (data : Option (List Byte)) (s : State) :
    Host.Outcome State Fault Refusal :=
  .next (whenRunning s (if hostInTransmission line s then hostDataReturned line place data s else s))

/-- The region offset of the first byte of the 8-byte word that holds a region offset, counted on past the region end. R60 has the
report name the word, not the byte, and is read so (DEDUCED, log entry 29); a word lies at the same offsets in every region (R44). -/
def wordOffset (st : Store) (offset : Nat) : Nat := offset % st.size / 8 * 8

/-- The forward's read found an uncorrectable word after `k` of its bytes (R132): the failure is taken and the notice posted with
the region offset of the word's first byte (R60). -/
def forwardFault (d i : LineId) (r : StagedRead) (k : Nat) (s : State) : State :=
  postNotice
    (.storeFault i d (((headEntry i s).map (·.sequence)).getD 0) ((headEntry i s).bind (·.tag))
      (BitVec.ofNat 16 (s.outbound d).bytesSent) (BitVec.ofNat 32 (wordOffset (s.store i) (r.start + k))))
    (takeFailure d .storeFault s)

/-- The oldest read of a forward's bytes returns from the source store (R128, R132). -/
def forwardDataReturned (d i : LineId) (s : State) : State :=
  match (s.outbound d).staging.reads with
  | r :: rest =>
    let addresses := (s.store i).run r.start r.length
    match firstFault s.ddr addresses with
    | some k => forwardFault d i r k s
    | none =>
      issueReads d
        (updOutbound d
          (fun o => { o with
            staging := { o.staging with bytes := o.staging.bytes ++ addresses.map (cellRead s.ddr.cells), reads := rest } })
          s)
  | [] => s

/-- FORWARD_DATA_READ_DONE (R128). -/
def execForwardDataReadDone (line : LineId) (s : State) : Host.Outcome State Fault Refusal :=
  .next (whenRunning s
    (match forwardSource line s with
     | some i => forwardDataReturned line i s
     | none => s))

/-- DDR_WORD_CORRUPTED (R44): at any time, in any part state. -/
def execDdrWordCorrupted (word : BitVec 27) (s : State) : Host.Outcome State Fault Refusal :=
  .next (updDdr (fun d => d.corrupt word.toNat) s)

end Sys2Proof.Machine
end

