-- ==== Sys2Proof/Machine/TimeEvents.lean ====
section
/-! DEFINITION. The events of time (chapter 7): the period timer, and the microsecond of the part's time base, which also counts the
running timers down (log entry 5). -/

namespace Sys2Proof.Machine

/-- The internal advance (R146): the epoch goes on by 1 and the period timer starts again. -/
def advanceEpoch (s : State) : State :=
  changeEpoch none (s.time.epoch + 1) false (updTime (fun t => { t with timer := some (t.period * 1000) }) s)

/-- PERIOD_TIMER_EXPIRY (R146): the period timer has run down under INTERNAL. A TIME_SET taken first has restarted or stopped it, and
no expiry happens (R152). -/
def execPeriodTimerExpiry (s : State) : Host.Outcome State Fault Refusal :=
  .next (whenRunning s (if s.time.source = .internal ∧ s.time.timer = some 0 then advanceEpoch s else s))

/-- A timer one microsecond on. -/
def countDown (t : Option Nat) : Option Nat := t.map (· - 1)

/-- The time unit one microsecond on (R142): the fine counter stays at its largest value. -/
def timeTick (t : TimeUnit) : TimeUnit :=
  { t with fine := if t.fine = 16777215 then 16777215 else t.fine + 1, timer := countDown t.timer }

/-- A line port one microsecond on. -/
def portTick (p : LinePort) : LinePort :=
  { p with silence := countDown p.silence, handshake := countDown p.handshake, quiet := countDown p.quiet }

/-- A head engine one microsecond on (R85). -/
def headTick (h : HeadEngine) : HeadEngine := { h with timer := countDown h.timer }

/-- The same change of every line's value. -/
def eachLine {α : Type} (f : α → α) (p : PerLine α) : PerLine α := ⟨f p.l0, f p.l1, f p.l2, f p.l3⟩

/-- FINE_COUNTER_TICK (R142): in FAULTED the time unit stands still (R153). -/
def execFineCounterTick (s : State) : Host.Outcome State Fault Refusal :=
  .next
    (if s.part.state = .faulted then s
     else { s with time := timeTick s.time, ports := eachLine portTick s.ports, heads := eachLine headTick s.heads })

end Sys2Proof.Machine
end

