-- ==== Sys2Proof/Machine/Dispatch.lean ====
section
/-! DEFINITION. One arm for each command: its meaning. -/

namespace Sys2Proof.Machine

/-- What a command does to everything but the queue. -/
def exec (i : Instr) (s : State) : Host.Outcome State Fault Refusal :=
  match i with
  | .enable value => Sys2Proof.Machine.execEnable value s
  | .reset value => Sys2Proof.Machine.execReset value s
  | .powerOn => Sys2Proof.Machine.execPowerOn s
  | .anchorWrite half lanes value => Sys2Proof.Machine.execAnchorWrite half lanes value s
  | .registerWrite register lanes value => Sys2Proof.Machine.execRegisterWrite register lanes value s
  | .postHostRing value => Sys2Proof.Machine.execPostHostRing value s
  | .postPartRing value => Sys2Proof.Machine.execPostPartRing value s
  | .postArm value => Sys2Proof.Machine.execPostArm value s
  | .anchorReadDone data => Sys2Proof.Machine.execAnchorReadDone data s
  | .slotGranted ring => Sys2Proof.Machine.execSlotGranted ring s
  | .pendingNoticeWrite => Sys2Proof.Machine.execPendingNoticeWrite s
  | .commandReadDone entry => Sys2Proof.Machine.execCommandReadDone entry s
  | .linkConfigure => Sys2Proof.Machine.execLinkConfigure s
  | .linkStart => Sys2Proof.Machine.execLinkStart s
  | .linkStop => Sys2Proof.Machine.execLinkStop s
  | .linkFlush => Sys2Proof.Machine.execLinkFlush s
  | .linkHold => Sys2Proof.Machine.execLinkHold s
  | .sendCancel => Sys2Proof.Machine.execSendCancel s
  | .tableWrite => Sys2Proof.Machine.execTableWrite s
  | .tableRead => Sys2Proof.Machine.execTableRead s
  | .timeSet => Sys2Proof.Machine.execTimeSet s
  | .queryLink => Sys2Proof.Machine.execQueryLink s
  | .characterAlign line c => Sys2Proof.Machine.execCharacterAlign line c s
  | .rxConnectChar line c => Sys2Proof.Machine.execRxConnectChar line c s
  | .rxRunChar line c => Sys2Proof.Machine.execRxRunChar line c s
  | .handshakeTimeout line => Sys2Proof.Machine.execHandshakeTimeout line s
  | .silence line => Sys2Proof.Machine.execSilence line s
  | .quietTimerExpiry line => Sys2Proof.Machine.execQuietTimerExpiry line s
  | .characterBoundary line => Sys2Proof.Machine.execCharacterBoundary line s
  | .periodTimerExpiry => Sys2Proof.Machine.execPeriodTimerExpiry s
  | .headTimerExpiry line => Sys2Proof.Machine.execHeadTimerExpiry line s
  | .deliveryRecordResume line => Sys2Proof.Machine.execDeliveryRecordResume line s
  | .fillRecordReadDone line data => Sys2Proof.Machine.execFillRecordReadDone line data s
  | .deliveryBufferDone line => Sys2Proof.Machine.execDeliveryBufferDone line s
  | .sendRecordReadDone line data => Sys2Proof.Machine.execSendRecordReadDone line data s
  | .hostDataReadDone line place data => Sys2Proof.Machine.execHostDataReadDone line place data s
  | .forwardDataReadDone line => Sys2Proof.Machine.execForwardDataReadDone line s
  | .ddrWordCorrupted word => Sys2Proof.Machine.execDdrWordCorrupted word s
  | .fineCounterTick => Sys2Proof.Machine.execFineCounterTick s

end Sys2Proof.Machine
end

