-- ==== Sys2Proof/Safety.lean ====
section
/-! DEFINITION. What a good state of the part is, in the terms of the manual's laws: the credit laws (R27, R37), the store law
(R45), the ring laws (R164, R171), lines in OFF outside RUNNING (R24), and the DDR memory's canonical form. -/

namespace Sys2Proof.Machine

/-- The parts of law 1 and law 2 that do not speak of the store (R27, R37): no figure above 1024, an offer that would not take
outstanding above 1024, and no credit out of RUN. -/
def creditBounded (s : State) : Prop :=
  ∀ n, (s.credit n).outstanding ≤ Config.creditLimit
    ∧ (s.credit n).allowance ≤ Config.creditLimit
    ∧ (∀ k, (s.credit n).offer = some k → (s.credit n).outstanding + 16 * k ≤ Config.creditLimit)
    ∧ ((s.port n).state ≠ .run → s.credit n = ⟨0, 0, none⟩)

/-- In HALTED, LOADING and FAULTED every line is in OFF (R24). -/
def offUnlessRunning (s : State) : Prop := s.part.state ≠ .running → ∀ n, (s.port n).state = .off

/-- Whether the youngest entry is OPEN. -/
def youngestOpen (index : List IndexEntry) : Bool :=
  match index.getLast? with
  | some e => e.state == .arriving
  | none => false

/-- Law 3 (R45) for a store: at most 2048 entries, none OPEN but the youngest, which is OPEN exactly in FILLING; and occupied
bytes that are the sum of the stored lengths and fit the region. -/
def storeLaw (st : Store) : Prop :=
  st.index.length ≤ Config.indexLimit
    ∧ (∀ e ∈ st.index.dropLast, e.state = .complete)
    ∧ (youngestOpen st.index = true ↔ st.intake = .filling)
    ∧ st.occupied = storedSum st.index
    ∧ st.occupied ≤ st.size

/-- Law 1 (R27) for a line: under LOSSLESS outstanding never exceeds the free bytes or the free entries, and an offer taken would
not either. -/
def losslessLaw (st : Store) (c : Credit) : Prop :=
  st.policy = .lossless →
    c.outstanding ≤ st.freeBytes ∧ c.outstanding ≤ st.freeEntries
      ∧ ∀ k, c.offer = some k → c.outstanding + 16 * k ≤ st.freeBytes ∧ c.outstanding + 16 * k ≤ st.freeEntries

/-- Law 7 (R171) for a part-written ring: the entries and the reservations together fit the ring. -/
def partRingLaw (g : Ring) (a : Slots) : Prop := g.count + a.reserved ≤ g.size

/-- Law 8 (R164) for a host-written ring: the records posted and not taken fit the ring. -/
def hostRingLaw (g : Ring) : Prop := g.count ≤ g.size

/-- Law 3 with laws 1 and 2 (R27, R37, R45), which hold each other up: the store has room for every counted character that credit
lets in. -/
def storeCreditLaw (s : State) : Prop :=
  creditBounded s ∧ ∀ n, storeLaw (s.store n) ∧ losslessLaw (s.store n) (s.credit n)

/-- The slots of a line's completion ring that its engines hold (R100, R120, R125): the packet slot, the spare slot, the held chain's
and that of the chain in transmission. -/
def slotsHeld (n : LineId) (s : State) : Nat :=
  (s.delivery n).packetSlot.toNat + (s.delivery n).spareSlot.toNat + (s.outbound n).held.isSome.toNat
    + (hostInTransmission n s).toNat

/-- Law 7 for the part (R171): every part-written ring has room for its entries and its reservations, and every slot that an engine
or the command unit holds is among the reservations. No ring has more than 4096 entries (R159). -/
def slotLaw (s : State) : Prop :=
  (∀ r, (s.ring r).size ≤ 4096) ∧ (∀ p, partRingLaw (s.ring (partRingId p)) (s.slot p))
    ∧ (∀ n, slotsHeld n s ≤ (s.slot (.completion n)).reserved)
    ∧ (s.command.slot = true → 1 ≤ (s.slot .notice).reserved)
    ∧ (s.command.current ≠ none ∨ s.command.state = .fetch → s.command.slot = true)

/-- Law 8 for the part (R164): no host-written ring holds more than its size, and a reader that reads a record, or waits for the slot
it reads one with, has one to read (R178, R118, R100, R101). -/
def recordLaw (s : State) : Prop :=
  (∀ r, partRingOf r = none → hostRingLaw (s.ring r))
    ∧ (s.command.state = .fetch ∨ s.command.state = .slotWait → 1 ≤ (s.ring .command).count)
    ∧ ∀ n, ((s.outbound n).fetch = .fetch → 1 ≤ (s.ring (.send n)).count)
      ∧ ((s.delivery n).state = .fetch ∨ (s.delivery n).state = .spareWait → 1 ≤ (s.ring (.fill n)).count)

/-- A delivery engine holds its packet slot from the start of its leg to its end and a spare slot in FETCH (R97, R100), and out of
IDLE its leg is the delivery leg of its line's decided head: PENDING in SLOT_WAIT, ACTIVE otherwise (R97). -/
def deliveryLaw (s : State) : Prop :=
  ∀ n, ((s.delivery n).packetSlot = true ↔ (s.delivery n).state ≠ .idle ∧ (s.delivery n).state ≠ .slotWait)
    ∧ ((s.delivery n).spareSlot = true ↔ (s.delivery n).state = .fetch)
    ∧ ((s.delivery n).state ≠ .idle →
      ∃ e rest, (s.store n).index = e :: rest ∧ e.state = .complete ∧ e.disposition ≠ none
        ∧ e.delivery = if (s.delivery n).state = .slotWait then .pending else .active)

/-- Before RUNNING no engine has taken anything up and no slot is reserved (R156, R162). -/
def restBeforeRunning (s : State) : Prop :=
  s.part.state = .halted ∨ s.part.state = .loading →
    s.command = CommandUnit.reset ∧ (∀ p, (s.slot p).reserved = 0)
      ∧ ∀ n, (s.delivery n).state = .idle ∧ (s.outbound n).fetch = .waitRecord ∧ (s.outbound n).held = none
        ∧ hostInTransmission n s = false

/-- Laws 7 and 8 (R171, R164), with what holds them up: the engines' use of their slots and records, and the store law, which keeps
a head in place under its leg. -/
def ringLaws (s : State) : Prop :=
  storeCreditLaw s ∧ slotLaw s ∧ recordLaw s ∧ deliveryLaw s ∧ restBeforeRunning s

/-- The region of every configured line is one that R64 allows, and no two of them share a DDR address. -/
def regionLaw (s : State) : Prop :=
  ∀ n, (s.port n).configured = true →
    (s.store n).base % 65536 = 0 ∧ (s.store n).size % 65536 = 0 ∧ 65536 ≤ (s.store n).size
      ∧ (s.store n).size ≤ 268435456 ∧ (s.store n).base + (s.store n).size ≤ 1073741824
      ∧ ∀ m, m ≠ n → (s.port m).configured = true →
        (s.store n).base + (s.store n).size ≤ (s.store m).base ∨ (s.store m).base + (s.store m).size ≤ (s.store n).base

/-- Only the head carries a disposition and legs (R46, R74), and an OPEN entry carries no disposition. -/
def onlyHeadDecided (s : State) : Prop :=
  ∀ n, (∀ e ∈ (s.store n).index.tail, e.disposition = none ∧ e.delivery = .absent ∧ e.forward = .absent)
    ∧ ∀ e ∈ (s.store n).index, e.state = .arriving → e.disposition = none

/-- What the rule DROP and the table make of a packet (R69, R72, R74): a bad one, truncated or closed with ABANDON or LINK_LOST, is
discarded under DROP, its destination and strip choice unused (log entry 14), and any other takes the entry of its tag. -/
def disposed (h : HeadEngine) (e : IndexEntry) : Disposition :=
  if h.badRule = .drop ∧ (e.truncated = true ∨ e.endKind = some .abandon ∨ e.endKind = some .linkLost) then
    ⟨.discard, .l0, false⟩
  else tableEntry h (match e.tag with | some g => g.toNat | none => 256)

/-- The head of a store has nothing left to do at once: a COMPLETE head is decided (R74), has a live leg or it would have retired
(R82), and its offered delivery leg has been taken up by the delivery engine (R78, R97). -/
def headSettled (n : LineId) (s : State) : Prop :=
  ∀ e, (s.store n).index.head? = some e → e.state = .complete →
    e.disposition ≠ none ∧ (e.delivery = .pending ∨ e.delivery = .active ∨ e.forward = .pending ∨ e.forward = .active)
      ∧ (e.delivery = .pending → (s.head n).hold = false → (s.delivery n).state ≠ .idle)

/-- Outside FAULTED every head is settled. In FAULTED heads stand still (R94). -/
def headsSettled (s : State) : Prop := s.part.state ≠ .faulted → ∀ n, headSettled n s

/-- The place of a notice in the order of R176: its kind, and within the kind its line, or for POST_REJECTED its ring number with NO_RING
last. R175 gives a key to each place: FORWARD_CUT and STORE_FAULT go by the source line, and a MARK of source INTERNAL has the line
field 0. -/
def noticePlace : Notice → Nat × Nat
  | .linkState n _ _ => (0, lineNumber n)
  | .dropped n _ _ => (1, lineNumber n)
  | .headExpired n _ _ _ _ _ => (2, lineNumber n)
  | .forwardCut source _ _ _ _ => (3, lineNumber source)
  | .storeFault source _ _ _ _ _ => (4, lineNumber source)
  | .mark none _ _ _ _ => (5, 0)
  | .mark (some n) _ _ _ _ => (5, lineNumber n)
  | .postRejected ring _ _ _ _ _ => (6, if 14 ≤ ring.toNat then 14 else ring.toNat)

/-- The pending-notice set is in the order of R176 with one notice for each key (R175). -/
def heldInOrder (held : List HeldNotice) : Prop := held.Pairwise (fun a b => noticeKey a.notice < noticeKey b.notice)

/-- The place of a requester in the cyclic order H, S0, S1, S2, S3 (R123). -/
def requesterPlace : Winner → Nat
  | .host => 0
  | .store n => 1 + lineNumber n

/-- How many requesters come before one in the order of the next grant, counting on from the last winner (R123). -/
def turnsBefore (last w : Winner) : Nat := (requesterPlace w + 4 - requesterPlace last) % 5

/-! ## Frames -/

/-- The blocks of the state. -/
inductive Block where
  | ports
  | credits
  | stores
  | heads
  | deliveries
  | outbounds
  | memory
  | time
  | part
  | rings
  | slots
  | held
  | command
  | bus
  | wires
  | pending
  deriving DecidableEq, Repr

/-- Every byte of the DDR memory reads as before, and the same words are uncorrectable. -/
def sameMemory (s t : State) : Prop :=
  ∀ a, cellRead t.ddr.cells a = cellRead s.ddr.cells a ∧ t.ddr.bad a = s.ddr.bad a

/-- A block is as it was. -/
def sameBlock (s t : State) : Block → Prop
  | .ports => t.ports = s.ports
  | .credits => t.credits = s.credits
  | .stores => t.stores = s.stores
  | .heads => t.heads = s.heads
  | .deliveries => t.deliveries = s.deliveries
  | .outbounds => t.outbounds = s.outbounds
  | .memory => sameMemory s t
  | .time => t.time = s.time
  | .part => t.part = s.part
  | .rings => t.rings = s.rings
  | .slots => t.slots = s.slots
  | .held => t.held = s.held
  | .command => t.command = s.command
  | .bus => t.bus = s.bus
  | .wires => t.wires = s.wires
  | .pending => t.pending = s.pending

/-- Every block but those listed is as it was. -/
def frame (changed : List Block) (s t : State) : Prop := ∀ b, b ∉ changed → sameBlock s t b

/-- What posting a notice changes: the notice ring's entry, index and flag, the pending-notice set and the host bus. -/
def noticeBlocks : List Block := [.rings, .slots, .held, .bus]

/-- The notices have been handed to the notice writer in order, and nothing else has reached the rings, the slots, the
pending-notice set or the host bus. -/
def noticed (notices : List Notice) (s t : State) : Prop :=
  let u := notices.foldl (fun u nt => postNotice nt u) s
  t.rings = u.rings ∧ t.slots = u.slots ∧ t.held = u.held ∧ t.bus = u.bus

/-- Every line port but one is as it was. -/
def otherPorts (n : LineId) (s t : State) : Prop := ∀ m, m ≠ n → t.port m = s.port m
/-- The credit of every line but one is as it was. -/
def otherCredits (n : LineId) (s t : State) : Prop := ∀ m, m ≠ n → t.credit m = s.credit m
/-- Every store but one is as it was. -/
def otherStores (n : LineId) (s t : State) : Prop := ∀ m, m ≠ n → t.store m = s.store m
/-- Every head engine but one is as it was. -/
def otherHeads (n : LineId) (s t : State) : Prop := ∀ m, m ≠ n → t.head m = s.head m
/-- Every delivery engine but one is as it was. -/
def otherDeliveries (n : LineId) (s t : State) : Prop := ∀ m, m ≠ n → t.delivery m = s.delivery m
/-- Every outbound engine but one is as it was. -/
def otherOutbounds (n : LineId) (s t : State) : Prop := ∀ m, m ≠ n → t.outbound m = s.outbound m
/-- Every ring but one is as it was. -/
def otherRings (r : RingId) (s t : State) : Prop := ∀ q, q ≠ r → t.ring q = s.ring q
/-- The slot accounting of every ring but one is as it was. -/
def otherSlots (r : PartRing) (s t : State) : Prop := ∀ q, q ≠ r → t.slot q = s.slot q

/-- The part is about to carry out a command of a kind on a line, and no check refuses it (R179, R180). -/
def executing (k : CommandKind) (n : LineId) (e : Record) (index : BitVec 16) (s : State) : Prop :=
  s.part.state = .running ∧ s.command.state = .execute ∧ s.command.wait = .none
    ∧ s.command.current = some ⟨index, e⟩ ∧ commandKind (opcode e) = some k ∧ commandLine e = some n
    ∧ checkCommand e s = none

/-! ## Retirement -/

/-- A leg of a head that runs, or waits where the head engine does not take it up: the head stays for it (R77, R82). -/
def deliveryStays (i : LineId) (h : IndexEntry) (s : State) : Prop :=
  h.delivery = .active ∨ (h.delivery = .pending ∧ ((s.head i).hold = true ∨ (s.delivery i).state ≠ .idle))

/-- Whether an entry behind the head is discarded as soon as it is the head (R76). -/
def discardedNext (h : HeadEngine) (x : IndexEntry) : Bool :=
  x.state == .complete && x.disposition.isNone && (disposed h x).action == .discard

/-- Behind the head and the packets discarded after it, the next entry is OPEN or there is none, or hold is on and the entry is COMPLETE
and not decided: a retirement then leaves it as the head with nothing more to do. -/
def quietNext (i : LineId) (rest : List IndexEntry) (s : State) : Prop :=
  ∀ x, (rest.dropWhile (discardedNext (s.head i))).head? = some x → x.state = .complete →
    x.disposition = none ∧ (s.head i).hold = true

/-- An index with its front decided if that is COMPLETE (R74, R75). -/
def decidedFront (h : HeadEngine) : List IndexEntry → List IndexEntry
  | [] => []
  | x :: rest =>
    if x.state = .complete then
      { x with
        disposition := some (disposed h x),
        delivery := if (disposed h x).action = .deliver ∨ (disposed h x).action = .copy then .pending else .absent,
        forward := if (disposed h x).action = .forward ∨ (disposed h x).action = .copy then .pending else .absent } :: rest
    else x :: rest

/-- The credit of a line with its offer worked out again in a state (R30, R33): in RUN from the store's room as it stands there, and
out of RUN none (R40). -/
def reckoned (n : LineId) (c : Credit) (t : State) : Credit :=
  { c with offer := if (t.port n).state = .run then offerOf (creditBound (t.store n) - c.outstanding) else none }

/-- From the state `u` the head `h` of store `i`, its legs at their end, has retired (R61, R82): it has left the index, its bytes are
free, the head timer is stopped, packets discarded behind it retire too, counted (R76), and the next entry is decided if it is COMPLETE
(R74). The line's offer is worked out again (R33, R58). With the expired mark set the expired count rises and HEAD_EXPIRED is posted
(R89). A flush that waits ends with its count, plus 1 when the head is neither expired nor has a leg DONE, which is then counted
discarded too (R91, R187). -/
def headRetired (i : LineId) (h : IndexEntry) (rest : List IndexEntry) (expired : Bool) (u t : State) : Prop :=
  let st := u.store i
  let engine := u.head i
  let counted : Bool := engine.flush.isSome && !expired && h.delivery != .done && h.forward != .done
  let gone := rest.takeWhile (discardedNext engine)
  let freed := h.stored + (gone.map (·.stored)).sum
  let noticed :=
    if expired then postNotice (.headExpired i h.sequence h.tag h.delivery h.forward (engine.expiredCount + 1)) u else u
  let ended :=
    match engine.flush with
    | some k => endCommand .ok (le32 (if counted then k + 1 else k)) noticed
    | none => noticed
  otherHeads i u t ∧ otherStores i u t ∧ otherCredits i u t
    ∧ t.store i = { st with
        index := decidedFront engine (rest.dropWhile (discardedNext engine)), occupied := st.occupied - freed,
        readOffset := (st.readOffset + freed) % st.size }
    ∧ t.credit i = reckoned i (u.credit i) t
    ∧ t.head i = { engine with
        timer := none, expired := false, flush := none,
        expiredCount := if expired then engine.expiredCount + 1 else engine.expiredCount,
        discardedCount := engine.discardedCount + BitVec.ofNat 32 (gone.length + if counted then 1 else 0) }
    ∧ t.rings = ended.rings ∧ t.slots = ended.slots ∧ t.held = ended.held ∧ t.bus = ended.bus ∧ t.command = ended.command

/-! ## Loss of RUN -/

/-- The transmitter of a line has no packet, and nothing else of its engine has changed. -/
def transmitterEmptied (n : LineId) (s t : State) : Prop :=
  otherOutbounds n s t
    ∧ t.outbound n
      = { s.outbound n with transmission := .none, bytesSent := 0, staging := ⟨[], [], []⟩, failure := .none }

/-- A store after the loss of RUN on its line (R53, R56): an OPEN entry is COMPLETE with LINK_LOST and counted, and shedding is at
its end. -/
def lostStore (st : Store) : Store :=
  match st.intake, st.index.getLast? with
  | .filling, some e =>
    { st with
      index := st.index.dropLast ++ [{ e with state := .complete, endKind := some .linkLost }], intake := .between,
      received := st.received + 1, truncated := st.truncated + (if e.truncated then 1 else 0) }
  | _, _ => { st with intake := .between }

/-- The head of a line's own store has nothing to do at the loss of RUN: it is settled, and a packet that closes then lies behind
another. -/
def headAtRest (n : LineId) (s : State) : Prop :=
  headSettled n s ∧ ((s.store n).intake = .filling → 2 ≤ (s.store n).index.length)

/-- The loss of RUN with an OPEN packet that is the head, and none in transmission (R53, R74): it closes with LINK_LOST and is
decided at once. It is bad, so the rule DROP discards it (R72, R76); a table entry DISCARD does too, and one of FORWARD toward a line
out of RUN leaves its leg PENDING under the head timer (R75, R85). -/
def lostHead (n : LineId) (notice : Notice) (s t : State) : Prop :=
  ∀ e d, (s.outbound n).transmission = .none → (s.store n).intake = .filling → (s.store n).index = [e] →
    e.disposition = none → (s.head n).timer = none → (s.head n).expired = false → (s.head n).flush = none →
    d = tableEntry (s.head n) (match e.tag with | some g => g.toNat | none => 256) →
    (s.head n).badRule = .drop ∨ d.action = .discard
      ∨ (d.action = .forward ∧ (d.destination = n ∨ (s.port d.destination).state ≠ .run)) →
    frame (.ports :: .credits :: .stores :: .heads :: noticeBlocks) s t ∧ otherCredits n s t ∧ otherStores n s t
      ∧ otherHeads n s t ∧ noticed [notice] s t
      ∧ ((s.head n).badRule = .drop ∨ d.action = .discard →
        t.store n = { lostStore (s.store n) with
            index := [], occupied := (s.store n).occupied - e.stored,
            readOffset := ((s.store n).readOffset + e.stored) % (s.store n).size }
          ∧ t.head n = { s.head n with discardedCount := (s.head n).discardedCount + 1 })
      ∧ ((s.head n).badRule = .keep → d.action = .forward →
        t.store n = { lostStore (s.store n) with
            index := [{ e with
              state := .complete, endKind := some .linkLost, disposition := some d, delivery := .absent, forward := .pending }] }
          ∧ t.head n = { s.head n with
              timer := if (s.head n).hold ∨ (s.head n).limit = 0 then none else some ((s.head n).limit * 1000) })

/-- The loss of RUN with a host chain in transmission (R133): its SENT entry is written in its slot, and behind it the BAD_CHAIN entry
of an INVALID chain held (R121), here with no record left in the send ring. -/
def lostChain (n : LineId) (notice : Notice) (s t : State) : Prop :=
  ∀ c, (s.outbound n).transmission = .host c → headAtRest n s →
    let sent := fun (x : Chain) bytes status => sentBytes
      ⟨n, (x.records.head?.map (·.index)).getD 0, x.records.length, (x.records.getLast?.map (·.cookie)).getD 0, bytes, status, none⟩
    let u := writeReserved (.completion n)
      (sent c (s.outbound n).bytesSent (if (s.outbound n).failure = .none then .linkLost else .hostReadError)) (postNotice notice s)
    frame (.ports :: .credits :: .stores :: .outbounds :: noticeBlocks) s t ∧ otherCredits n s t ∧ otherStores n s t
      ∧ t.store n = lostStore (s.store n)
      ∧ ((∀ x, (s.outbound n).held = some x → x.verdict ≠ .invalid) → transmitterEmptied n s t ∧ noticed [] u t)
      ∧ ∀ x, (s.outbound n).held = some x → x.verdict = .invalid → (s.ring (.send n)).count = 0 →
        otherOutbounds n s t
          ∧ t.outbound n = { s.outbound n with
              transmission := .none, bytesSent := 0, staging := ⟨[], [], []⟩, failure := .none, held := none,
              fetch := .waitRecord }
          ∧ noticed [] (writeReserved (.completion n) (sent x 0 .badChain) u) t

/-- The loss of RUN with a forward in transmission (R134): its leg fails with LINK_LOST, and FORWARD_CUT is posted. The source's head
stays while its delivery runs or waits, and retires with no other leg live. -/
def lostForward (n : LineId) (notice : Notice) (s t : State) : Prop :=
  ∀ i q b h rest d, (s.outbound n).transmission = .forward i q b → (s.store i).index = h :: rest →
    h.state = .complete → h.disposition = some d → (i ≠ n → headAtRest n s) →
    let cut : Notice := .forwardCut i n q h.tag (BitVec.ofNat 16 (s.outbound n).bytesSent)
    let behind := if i = n then (lostStore (s.store n)).index.tail else rest
    (deliveryStays i h s → (i = n → (s.store n).intake = .filling → rest ≠ []) →
      frame (.ports :: .credits :: .outbounds :: .stores :: noticeBlocks) s t ∧ otherCredits n s t
        ∧ transmitterEmptied n s t ∧ noticed [notice, cut] s t ∧ (∀ m, m ≠ n → m ≠ i → t.store m = s.store m)
        ∧ (i ≠ n →
          t.store n = lostStore (s.store n)
            ∧ t.store i = { s.store i with index := { h with forward := .failed .linkLost } :: rest })
        ∧ (i = n →
          t.store n = { lostStore (s.store n) with
            index := { h with forward := .failed .linkLost } :: behind }))
    ∧ (h.delivery ≠ .pending → h.delivery ≠ .active → d.action ≠ .discard → quietNext i behind s →
      (i = n → (s.store n).intake = .filling → rest ≠ []) →
      frame (.ports :: .credits :: .outbounds :: .stores :: .heads :: .command :: noticeBlocks) s t ∧ transmitterEmptied n s t
        ∧ headRetired i { h with forward := .failed .linkLost } behind (s.head i).expired
          (updStore n lostStore (updCredit n (fun _ => ⟨0, 0, none⟩) (postNotice cut (postNotice notice s)))) t)

/-- What the loss of RUN on a line does (R23) with the notice of the line's change. The credit figures are 0 and no packet is open
or in transmission. The cases are a packet in transmission or none, and an OPEN packet behind a head, as the head, or none. That the
notice of the line's change is written before the SENT entry (log entry 2) and before FORWARD_CUT (log entry 9) is the model's order:
the blocks act at once and write as they come to it (R23, R186). -/
def lostRun (n : LineId) (notice : Notice) (s t : State) : Prop :=
  t.credit n = ⟨0, 0, none⟩ ∧ (t.outbound n).transmission = .none ∧ (t.store n).intake = .between
    ∧ t.wires = s.wires ∧ t.time = s.time ∧ t.part = s.part ∧ sameMemory s t
    ∧ ((s.outbound n).transmission = .none → headAtRest n s →
      frame (.ports :: .credits :: .stores :: noticeBlocks) s t ∧ otherCredits n s t ∧ otherStores n s t
        ∧ t.store n = lostStore (s.store n) ∧ noticed [notice] s t)
    ∧ lostHead n notice s t ∧ lostChain n notice s t ∧ lostForward n notice s t

/-! ## A packet that closes as the head -/

/-- The entry that an END or ABANDON closes as the head: the OPEN packet that is alone in the index, or, between packets with an empty
index, a packet of 0 bytes with no tag, a number and a stamp of its own (R52). -/
def closesAsHead (n : LineId) (e : IndexEntry) (s : State) : Prop :=
  ((s.store n).intake = .filling ∧ (s.store n).index = [e])
    ∨ ((s.store n).intake = .between ∧ (s.store n).index = []
      ∧ e = ⟨(s.store n).sequence, .arriving, (s.store n).writeOffset, 0, 0, none, false, none, ⟨s.time.epoch, s.time.fine⟩, none,
        .absent, .absent⟩)

/-- A store after such a packet has closed, its end kind and flaws counted (R52, R63), with an index. -/
def closedStore (e : IndexEntry) (abandon : Bool) (index : List IndexEntry) (st : Store) : Store :=
  { st with
    index := index, intake := .between, received := st.received + 1,
    sequence := if st.intake = .between then st.sequence + 1 else st.sequence,
    truncated := st.truncated + (if e.truncated then 1 else 0), abandoned := st.abandoned + (if abandon then 1 else 0) }

/-! ## The start of a delivery leg -/

/-- The bytes of an entry that a disposition delivers or forwards (R98): one fewer when it strips a tag. -/
def leftBytes (e : IndexEntry) (d : Disposition) : Nat := e.stored - if d.strip = true ∧ e.tag ≠ none then 1 else 0

/-- A delivery engine at the start of a leg with its packet slot held (R97), in a state. -/
def startedDelivery (state : DeliveryState) (bytes : Nat) (d : Delivery) : Delivery :=
  { d with
    state := state, leg := true, packetSlot := true, toDeliver := bytes, delivered := 0, records := [], current := none,
    faultPosition := none, short := false, partialEnd := false }

end Sys2Proof.Machine
end

