-- ==== Sys2Proof/WellFormed.lean ====
section
/-! DEFINITION. Which commands are well formed: a register write is the row's own write, and the bits of CHARACTER_ALIGN and the
bytes of HOST_DATA_READ_DONE are such as can arrive. `exec` is defined on every command, well formed or not. -/

namespace Sys2Proof

open Sys2Proof.Machine

/-- Whether a ring number names a host-written ring, or no ring (R165, R168). -/
def namesHostRing (w : BitVec 32) : Bool :=
  match postRing w with
  | some r => (partRingOf r).isNone
  | none => true

/-- Whether a ring number names a part-written ring. -/
def namesPartRing (w : BitVec 32) : Bool :=
  match postRing w with
  | some r => (partRingOf r).isSome
  | none => false

/-- Whether a write is one that its register ignores (R154, R157). -/
def ignoredWrite (register : WindowRegister) (lanes : BitVec 4) (w : BitVec 32) : Bool :=
  match register with
  | .ident => true
  | .status => true
  | .control => lanes != 15 || (!controlEnable w && !controlReset w)
  | .post => lanes != 15
  | .anchorLow => false
  | .anchorHigh => false

/-- Well-formed commands. -/
def wellFormed : Instr → Bool
  | .enable value => controlEnable value && !controlReset value
  | .reset value => controlReset value
  | .powerOn => true
  | .anchorWrite _ lanes _ => lanes != 0
  | .registerWrite register lanes value => ignoredWrite register lanes value
  | .postHostRing value => namesHostRing value
  | .postPartRing value => namesPartRing value && !postArmRequest value
  | .postArm value => namesPartRing value && postArmRequest value
  | .anchorReadDone _ => true
  | .slotGranted _ => true
  | .pendingNoticeWrite => true
  | .commandReadDone _ => true
  | .linkConfigure => true
  | .linkStart => true
  | .linkStop => true
  | .linkFlush => true
  | .linkHold => true
  | .sendCancel => true
  | .tableWrite => true
  | .tableRead => true
  | .timeSet => true
  | .queryLink => true
  | .characterAlign _ c => decodeCharacter c == .symbol .hello || decodeCharacter c == .symbol .ready
  | .rxConnectChar _ _ => true
  | .rxRunChar _ _ => true
  | .handshakeTimeout _ => true
  | .silence _ => true
  | .quietTimerExpiry _ => true
  | .characterBoundary _ => true
  | .periodTimerExpiry => true
  | .headTimerExpiry _ => true
  | .deliveryRecordResume _ => true
  | .fillRecordReadDone _ _ => true
  | .deliveryBufferDone _ => true
  | .sendRecordReadDone _ _ => true
  | .hostDataReadDone _ _ data =>
    match data with
    | some d => decide (1 ≤ d.length) && decide (d.length ≤ Config.readSize)
    | none => true
  | .forwardDataReadDone _ => true
  | .ddrWordCorrupted _ => true
  | .fineCounterTick => true

end Sys2Proof
end

