-- ==== Sys2Proof/Certificates/Slice0/Obligations.lean ====
section
/-! DEFINITION. The statements for the provers: what the commands of the BLX-440 do, by family, and the laws every step keeps. A
statement that rests on a choice of the model names the log entry. -/

open Sys2Proof Sys2Proof.Machine

/-! ## The machine -/

/-- A step carries out the command at the front of the queue with the rest of the queue, and on an empty queue the part idles:
the model's choice (log entry 3). -/
def Obligations.StepCarriesOutTheFront : Prop :=
  (∀ (c : Instr) (rest : List Instr) (s : State), s.pending = c :: rest → step s = exec c { s with pending := rest })
    ∧ ∀ s : State, s.pending = [] → step s = .next s

/-- Every command of the table has a next state, whatever the state and the operands, and none touches the queue (log entry 3). -/
def Obligations.NoCommandStopsOrTouchesTheQueue : Prop :=
  ∀ (c : Instr) (s : State), ∃ t, exec c s = .next t ∧ t.pending = s.pending

/-! ## The register window -/

/-- R157 for a 32-bit write to CONTROL, as the commands ENABLE and RESET make it: RESET set is a part reset, whatever ENABLE
says; ENABLE alone is taken in HALTED and begins the anchor load; otherwise nothing changes; and of two writes the later has the
last word. -/
def Obligations.ControlWritesAreTakenAsR157Says : Prop :=
  (∀ (w : BitVec 32) (s : State), controlReset w = true →
      exec (.reset w) s = .next (partReset s) ∧ exec (.enable w) s = .next (partReset s))
    ∧ (∀ (w : BitVec 32) (s : State), controlReset w = false → controlEnable w = true → s.part.state = .halted →
      exec (.enable w) s = .next (beginLoad s)
        ∧ (s.part.anchor.toNat % 256 = 0 → (beginLoad s).part.state = .loading))
    ∧ (∀ (w : BitVec 32) (s : State), controlReset w = false → controlEnable w = true → s.part.state ≠ .halted →
      exec (.enable w) s = .next s)
    ∧ (∀ (w : BitVec 32) (s : State), controlReset w = false → controlEnable w = false →
      exec (.enable w) s = .next s ∧ exec (.reset w) s = .next s)
    ∧ (∀ (v w : BitVec 32) (s t u : State), controlReset v = false → controlEnable v = true → controlReset w = true →
      exec (.enable v) s = .next t → exec (.reset w) t = .next u →
      u.part.state = .halted ∧ ∀ data, exec (.anchorReadDone data) u = .next u)
    ∧ (∀ (v w : BitVec 32) (s t u : State), controlReset v = true → controlReset w = false → controlEnable w = true →
      exec (.reset v) s = .next t → exec (.enable w) t = .next u → u.part.state = .loading)

/-- ENABLE in HALTED (R157, R158): with an aligned anchor address the part is in LOADING with the read of the anchor record
issued; with a misaligned one it is in FAULTED with ANCHOR_INVALID and detail ANCHOR_ADDRESS, and nothing is read. That the
record is read in one read of 256 bytes is the model's (log entry 30). -/
def Obligations.EnableReadsTheAnchorOrFaults : Prop :=
  ∀ (w : BitVec 32) (s : State), controlReset w = false → controlEnable w = true → s.part.state = .halted →
    (s.part.anchor.toNat % 256 = 0 →
      exec (.enable w) s
        = .next { s with part := { s.part with state := .loading }, bus := s.bus ++ [.read s.part.anchor 256] })
    ∧ (s.part.anchor.toNat % 256 ≠ 0 →
      ∃ t, exec (.enable w) s = .next t ∧ t.part = { s.part with state := .faulted, cause := .anchorInvalid, detail := 1 }
        ∧ (∀ n, (t.port n).state = .off)
        ∧ frame [.part, .ports, .credits, .stores, .heads, .outbounds] s t)

/-- A part reset (R162), by RESET or at power-on, gives every block the values of its table: R6, R25, R42, R68, R95, R116, R141,
R156, R177; and no notice has been posted. It keeps the DDR memory's bytes, and RESET its marks, which POWER_ON clears (R44).
The model's choices: POWER_ON keeps the bytes (log entry 4), the output lists stay (log entry 2), and the five fields that no
table lists are empty (log entry 20). -/
def Obligations.PartResetRestoresEveryBlock : Prop :=
  ∀ (c : Instr) (s : State), (c = .powerOn ∨ ∃ w, c = .reset w ∧ controlReset w = true) →
    ∃ t, exec c s = .next t ∧ frame [.ports, .credits, .stores, .heads, .deliveries, .outbounds, .memory, .time, .part, .rings,
        .slots, .held, .command] s t
      ∧ (∀ n, (t.port n).state = .off ∧ (t.port n).configured = false ∧ (t.port n).initiative = .passive
        ∧ (t.port n).autoRestart = false ∧ (t.port n).rate = 10 ∧ (t.port n).markOut = false
        ∧ (t.port n).silence = none ∧ (t.port n).handshake = none ∧ (t.port n).quiet = none
        ∧ (t.port n).aligned = false ∧ (t.port n).markPending = false ∧ (t.port n).readyDue = false
        ∧ (t.port n).lastCause = .none ∧ (t.port n).errors = 0 ∧ (t.port n).markSlot = none ∧ (t.port n).markValue = none)
      ∧ (∀ n, t.credit n = ⟨0, 0, none⟩)
      ∧ (∀ n, (t.store n).base = 0 ∧ (t.store n).size = 0 ∧ (t.store n).maxLength = 65535 ∧ (t.store n).policy = .lossless
        ∧ (t.store n).writeOffset = 0 ∧ (t.store n).readOffset = 0 ∧ (t.store n).occupied = 0 ∧ (t.store n).index = []
        ∧ (t.store n).intake = .between ∧ (t.store n).sequence = 0 ∧ (t.store n).received = 0
        ∧ (t.store n).truncated = 0 ∧ (t.store n).abandoned = 0 ∧ (t.store n).dropped = 0)
      ∧ (∀ n, (∀ k, tableEntry (t.head n) k = ⟨.deliver, .l0, false⟩) ∧ (t.head n).badRule = .keep ∧ (t.head n).limit = 0
        ∧ (t.head n).hold = false ∧ (t.head n).timer = none ∧ (t.head n).expired = false ∧ (t.head n).flush = none
        ∧ (t.head n).discardedCount = 0 ∧ (t.head n).expiredCount = 0)
      ∧ (∀ n, t.delivery n = ⟨.idle, false, false, false, 0, 0, [], none, none, false, false⟩)
      ∧ (∀ n, t.outbound n = ⟨.waitRecord, [], none, none, .none, 0, ⟨[], [], []⟩, .none, .store .l3, none⟩)
      ∧ t.time = ⟨0, 0, .none, 1000, none, false, 0⟩
      ∧ t.part = ⟨.halted, 0, .none, 0, 0⟩
      ∧ (∀ r, t.ring r = ⟨0, 0, 0, 0, 0⟩) ∧ (∀ r, t.slot r = ⟨0, false, []⟩) ∧ t.held = []
      ∧ t.command = ⟨.idle, false, none, .none⟩
      ∧ (∀ a, cellRead t.ddr.cells a = cellRead s.ddr.cells a)
      ∧ (∀ a, t.ddr.bad a = if c = .powerOn then false else s.ddr.bad a)

/-- The register window (R154, R155, R199). What each register reads as, the bits of CONTROL, and the codes of STATUS (10.2);
where each lies among the 24 bytes, and that a read of any width gives the bytes addressed. A write to an anchor register in
HALTED replaces the bytes of the lanes written and nothing else, and in every other part state it is ignored; a well-formed
REGISTER_WRITE is ignored: to IDENT and STATUS always, and to CONTROL and POST when narrow. A write at an offset of one register
is the command of its lanes and word. -/
def Obligations.TheWindowReadsAndWritesAsR154Says : Prop :=
  (∀ s : State, readRegister s .ident = 0x04400103 ∧ readRegister s .control = 0 ∧ readRegister s .post = 0
      ∧ readRegister s .anchorHigh ++ readRegister s .anchorLow = s.part.anchor
      ∧ (readRegister s .status).extractLsb' 0 2 = partStateCode s.part.state
      ∧ (readRegister s .status).extractLsb' 2 2 = faultCauseCode s.part.cause
      ∧ (readRegister s .status).extractLsb' 4 4 = 0 ∧ (readRegister s .status).extractLsb' 8 8 = s.part.detail
      ∧ (readRegister s .status).extractLsb' 16 16 = 0)
  ∧ (∀ w : BitVec 32, controlEnable w = w.getLsbD 0 ∧ controlReset w = w.getLsbD 1)
  ∧ [PartState.halted, .loading, .running, .faulted].map partStateCode = [0, 1, 2, 3]
  ∧ [FaultCause.none, .anchorRead, .anchorInvalid, .ringRead].map faultCauseCode = [0, 1, 2, 3]
  ∧ windowRegisters.map windowOffset = [0x00, 0x04, 0x08, 0x0C, 0x10, 0x14]
  ∧ (∀ (s : State) (r : WindowRegister) (k width : Nat), k < 4 →
      readWindow s (windowOffset r + k) 1 = some [readRegisterByte s r k]
        ∧ (windowOffset r + k + width ≤ 24 →
          ∃ bytes, readWindow s (windowOffset r + k) width = some bytes ∧ bytes.length = width
            ∧ ∀ j, j < width → (readWindow s (windowOffset r + k + j) 1).map (·.head?) = some bytes[j]?)
        ∧ (24 < windowOffset r + k + width → readWindow s (windowOffset r + k) width = none))
  ∧ (∀ (r : WindowRegister) (k : Nat) (bytes : List Byte), k + bytes.length ≤ 4 → bytes ≠ [] →
      ∃ lanes w, windowWrite (windowOffset r + k) bytes = [writeCommand r lanes w]
        ∧ ∀ j, j < 4 → (lanes.getLsbD j = decide (k ≤ j ∧ j < k + bytes.length))
          ∧ (k ≤ j → j < k + bytes.length → bytes[j - k]? = some (w.extractLsb' (8 * j) 8)))
  ∧ (∀ (r : WindowRegister) (lanes : BitVec 4) (w : BitVec 32) (s : State), lanes ≠ 0 →
      wellFormed (writeCommand r lanes w) = true ∧ exec (writeCommand r lanes w) s = .next (writeRegister r lanes w s))
  ∧ (∀ (half : AnchorHalf) (lanes : BitVec 4) (w : BitVec 32) (s : State),
      (s.part.state = .halted →
        ∃ t, exec (.anchorWrite half lanes w) s = .next t ∧ frame [.part] s t
          ∧ t.part = { s.part with anchor := t.part.anchor }
          ∧ ∀ k, k < 4 →
            (readRegisterByte t (match half with | .low => .anchorLow | .high => .anchorHigh) k
                = if lanes.getLsbD k then w.extractLsb' (8 * k) 8
                  else readRegisterByte s (match half with | .low => .anchorLow | .high => .anchorHigh) k)
              ∧ readRegisterByte t (match half with | .low => .anchorHigh | .high => .anchorLow) k
                = readRegisterByte s (match half with | .low => .anchorHigh | .high => .anchorLow) k)
      ∧ (s.part.state ≠ .halted → exec (.anchorWrite half lanes w) s = .next s))
  ∧ ∀ (r : WindowRegister) (lanes : BitVec 4) (w : BitVec 32) (s : State),
    wellFormed (.registerWrite r lanes w) = true → exec (.registerWrite r lanes w) s = .next s

/-! ## POST -/

/-- A POST to a host-written ring (R166): if the new count is at most the size and not below the current count, the producer
index is the index written and every other ring stays as it is. The ring's reader acts at once: the command unit in IDLE asks
for its notice slot, and with one reads the command (R178); the outbound engine in WAIT_RECORD on a configured line reads the
record (R118). With nothing posted, or a reader that is busy, nothing else changes. That a POST to a fill ring leaves the
delivery engine to a step of its own is the model's (log entry 8). A ring's count and its slots' addresses (R163, R164) are
given by value. -/
def Obligations.PostToAHostRingSetsItsProducer : Prop :=
  (∀ (g : Ring) (i : BitVec 16), g.count = (g.producer - g.consumer).toNat
      ∧ g.slotAddress i = g.base + BitVec.ofNat 64 (32 * (i.toNat % g.size)))
  ∧ ∀ (w : BitVec 32) (r : RingId) (s : State), s.part.state = .running → postRing w = some r → partRingOf r = none →
    (postIndex w - (s.ring r).consumer).toNat ≤ (s.ring r).size →
    (s.ring r).count ≤ (postIndex w - (s.ring r).consumer).toNat →
    ∃ t, exec (.postHostRing w) s = .next t ∧ t.ring r = { s.ring r with producer := postIndex w } ∧ otherRings r s t
      ∧ frame [.rings, .slots, .command, .outbounds, .bus] s t
      ∧ (r = .command →
        t.outbounds = s.outbounds ∧ otherSlots .notice s t
          ∧ (s.command.state = .idle → postIndex w ≠ (s.ring r).consumer → s.held = [] → 1 ≤ freeSlots .notice s →
            t.command = { s.command with state := .fetch, slot := true }
              ∧ t.slot .notice = { s.slot .notice with reserved := (s.slot .notice).reserved + 1 }
              ∧ t.bus = s.bus ++ [.read ((s.ring r).slotAddress (s.ring r).consumer) 32])
          ∧ (s.command.state = .idle → postIndex w ≠ (s.ring r).consumer → s.held ≠ [] ∨ freeSlots .notice s = 0 →
            t.command = { s.command with state := .slotWait } ∧ t.slots = s.slots ∧ t.bus = s.bus)
          ∧ (s.command.state ≠ .idle ∨ postIndex w = (s.ring r).consumer →
            t.command = s.command ∧ t.slots = s.slots ∧ t.bus = s.bus))
      ∧ (∀ n, r = .send n →
        t.command = s.command ∧ t.slots = s.slots ∧ otherOutbounds n s t
          ∧ ((s.outbound n).fetch = .waitRecord → (s.outbound n).held = none → (s.outbound n).cancel = none →
              (s.port n).configured = true → postIndex w ≠ (s.ring r).consumer →
            t.outbound n = { s.outbound n with fetch := .fetch }
              ∧ t.bus = s.bus ++ [.read ((s.ring r).slotAddress (s.ring r).consumer) 32])
          ∧ ((s.outbound n).fetch ≠ .waitRecord ∨ (s.outbound n).held ≠ none ∨ (s.outbound n).cancel ≠ none
              ∨ (s.port n).configured = false ∨ postIndex w = (s.ring r).consumer →
            t.outbounds = s.outbounds ∧ t.bus = s.bus))
      ∧ (∀ n, r = .fill n → frame [.rings] s t)

/-- A rejected POST (R168) changes no index and no flag of its own: it hands POST_REJECTED to the notice writer, with the reason
and the ring's indices, and 0 and 0 for NO_RING. In HALTED, LOADING and FAULTED every POST is ignored (R165, R198). POST_ARM
past the producer is rejected in the same way, with its arm request in the notice (R167, R168). The fields of the POST word
(10.2) and the fourteen ring numbers (R163, R165) are given by value. So are the rings the part writes. -/
def Obligations.RejectedPostsPostOnlyTheirNotice : Prop :=
  (∀ (w : BitVec 32) (s : State), s.part.state ≠ .running →
    exec (.postHostRing w) s = .next s ∧ exec (.postPartRing w) s = .next s ∧ exec (.postArm w) s = .next s)
  ∧ (∀ w : BitVec 32, postIndex w = w.extractLsb' 0 16 ∧ postRingField w = w.extractLsb' 16 4 ∧ postArmRequest w = w.getLsbD 20
      ∧ ∀ r, postRing w = some r ↔ (w.extractLsb' 16 4).toNat = ringNumber r)
  ∧ partRingId .notice = .notice ∧ (∀ n, partRingId (.completion n) = .completion n)
  ∧ (∀ r p, partRingOf r = some p ↔ r = partRingId p)
  ∧ ringNumber .command = 0 ∧ ringNumber .notice = 1
  ∧ (∀ (n : LineId) (k : Nat), (n, k) ∈ [(LineId.l0, 0), (.l1, 1), (.l2, 2), (.l3, 3)] →
      ringNumber (.send n) = 2 + k ∧ ringNumber (.fill n) = 6 + k ∧ ringNumber (.completion n) = 10 + k)
  ∧ ∀ (w : BitVec 32) (s : State), s.part.state = .running →
    (∀ r, postRing w = some r → partRingOf r = none →
      ¬ ((postIndex w - (s.ring r).consumer).toNat ≤ (s.ring r).size
          ∧ (s.ring r).count ≤ (postIndex w - (s.ring r).consumer).toNat) →
      exec (.postHostRing w) s
        = .next (postNotice (.postRejected (postRingField w) .countRange (postIndex w) (postArmRequest w)
            (s.ring r).producer (s.ring r).consumer) s))
    ∧ (∀ r p, postRing w = some r → partRingOf r = some p →
      (s.ring r).count < (postIndex w - (s.ring r).consumer).toNat →
      exec (.postPartRing w) s
        = .next (postNotice (.postRejected (postRingField w) .pastProducer (postIndex w) (postArmRequest w)
            (s.ring r).producer (s.ring r).consumer) s)
        ∧ exec (.postArm w) s
          = .next (postNotice (.postRejected (postRingField w) .pastProducer (postIndex w) true
              (s.ring r).producer (s.ring r).consumer) s))
    ∧ (14 ≤ (postRingField w).toNat →
      exec (.postHostRing w) s
        = .next (postNotice (.postRejected (postRingField w) .noRing (postIndex w) (postArmRequest w) 0 0) s))

/-- A POST to a part-written ring (R167) whose advance is at most the ring's count: the consumer index is the index written, and
the count falls by the advance. Without an arm request the free slots rise by the advance and nothing else changes; that the
freed slots wait for steps of their own is the model's (log entry 8). With one (R173), entries left after the move send the
vector at once and leave the flag clear, and with none left the flag is set; that POST_ARM asks for it on every word is the
model's (log entry 13). -/
def Obligations.PostToAPartRingSetsItsConsumer : Prop :=
  ∀ (w : BitVec 32) (p : PartRing) (s : State), s.part.state = .running → postRing w = some (partRingId p) →
    (postIndex w - (s.ring (partRingId p)).consumer).toNat ≤ (s.ring (partRingId p)).count →
    (postArmRequest w = false →
      ∃ t, exec (.postPartRing w) s = .next t ∧ frame [.rings] s t ∧ otherRings (partRingId p) s t
        ∧ t.ring (partRingId p) = { s.ring (partRingId p) with consumer := postIndex w }
        ∧ (t.ring (partRingId p)).count
            + (postIndex w - (s.ring (partRingId p)).consumer).toNat = (s.ring (partRingId p)).count
        ∧ (partRingLaw (s.ring (partRingId p)) (s.slot p) →
            freeSlots p t = freeSlots p s + (postIndex w - (s.ring (partRingId p)).consumer).toNat))
    ∧ ∃ t, exec (.postArm w) s = .next t ∧ frame [.rings, .slots, .bus] s t ∧ otherRings (partRingId p) s t ∧ otherSlots p s t
      ∧ t.ring (partRingId p) = { s.ring (partRingId p) with consumer := postIndex w }
      ∧ t.slot p = { s.slot p with armed := decide ((t.ring (partRingId p)).count = 0) }
      ∧ t.bus = s.bus ++ (if (t.ring (partRingId p)).count = 0 then [] else [.interrupt (s.ring (partRingId p)).vector])

/-! ## The ring unit -/

/-- R159, the anchor record read in LOADING. One that passes every check takes the part into RUNNING with each ring's base, size
and vector and every index 0, and writes the progress block with zeros; no other block changes. One that fails a check takes it
into FAULTED with ANCHOR_INVALID and the detail of the first check that fails, in the order format, rings 0 to 13, progress;
nothing is written. Where each field of the record lies (10.3) is given by value. -/
def Obligations.TheAnchorRecordDecidesRunningOrFaulted : Prop :=
  ∀ (a : AnchorRecord) (s : State), s.part.state = .loading →
    let good : RingId → Prop := fun r => 3 ≤ (anchorExponent a r).toNat ∧ (anchorExponent a r).toNat ≤ 12 ∧ anchorBase a r ≠ 0
      ∧ (anchorBase a r).toNat % 64 = 0 ∧ (anchorVector a r).toNat ≤ 31
    ∃ t, exec (.anchorReadDone (some a)) s = .next t
      ∧ (∀ r, anchorBase a r = a.extractLsb' (8 * (16 * ringNumber r)) 64
        ∧ anchorExponent a r = a.extractLsb' (8 * (16 * ringNumber r + 8)) 8
        ∧ anchorVector a r = a.extractLsb' (8 * (16 * ringNumber r + 9)) 8)
      ∧ anchorProgress a = a.extractLsb' (8 * 0xE0) 64 ∧ anchorFormat a = a.extractLsb' (8 * 0xE8) 16
      ∧ (anchorFormat a = 1 → (∀ r, good r) → (anchorProgress a).toNat % 64 = 0 →
        frame [.part, .rings, .bus] s t ∧ t.part = { s.part with state := .running, progress := anchorProgress a }
          ∧ (∀ r, t.ring r = ⟨anchorBase a r, 2 ^ (anchorExponent a r).toNat, anchorVector a r, 0, 0⟩)
          ∧ t.bus = s.bus ++ [.progressBlock (anchorProgress a)])
      ∧ (anchorFormat a ≠ 1 →
        t.part = { s.part with state := .faulted, cause := .anchorInvalid, detail := 0x02 } ∧ t.bus = s.bus)
      ∧ (∀ r, anchorFormat a = 1 → ¬ good r → (∀ q, ringNumber q < ringNumber r → good q) →
        t.part = { s.part with state := .faulted, cause := .anchorInvalid, detail := BitVec.ofNat 8 (0x40 + ringNumber r) }
          ∧ t.bus = s.bus)
      ∧ (anchorFormat a = 1 → (∀ r, good r) → (anchorProgress a).toNat % 64 ≠ 0 →
        t.part = { s.part with state := .faulted, cause := .anchorInvalid, detail := 0x03 } ∧ t.bus = s.bus)

/-- A failed read of the anchor record or of a record (R158, R161) enters FAULTED with its cause and detail. Every line is in
OFF with no credit, its timers stopped, alignment given up, MARK_PENDING, READY_DUE and the mark slot clear, its settings and
error record kept (R24); an OPEN packet is closed with LINK_LOST (R53), and every packet in transmission is cut, the leg of a
forward FAILED(LINK_LOST), the slot of a host chain kept (R140, log entry 10); no head engine retires anything (R94). Nothing
goes to the host, the wires, the rings, the slots or the pending-notice set. -/
def Obligations.FailedReadsEnterFaultedInSilence : Prop :=
  ∀ (c : Instr) (cause : FaultCause) (detail : BitVec 8) (s : State),
    ((c = .anchorReadDone none ∧ s.part.state = .loading ∧ cause = .anchorRead ∧ detail = 0)
      ∨ (c = .commandReadDone none ∧ s.part.state = .running ∧ s.command.state = .fetch ∧ cause = .ringRead ∧ detail = 0)
      ∨ (∃ n, c = .sendRecordReadDone n none ∧ s.part.state = .running ∧ (s.outbound n).fetch = .fetch ∧ cause = .ringRead
        ∧ detail = BitVec.ofNat 8 (2 + lineNumber n))
      ∨ (∃ n, c = .fillRecordReadDone n none ∧ s.part.state = .running ∧ (s.delivery n).state = .fetch ∧ cause = .ringRead
        ∧ detail = BitVec.ofNat 8 (6 + lineNumber n))) →
    ∃ t, exec c s = .next t ∧ t.part = { s.part with state := .faulted, cause := cause, detail := detail }
      ∧ frame [.part, .ports, .credits, .stores, .heads, .outbounds] s t
      ∧ (∀ n, ((s.port n).state = .off → t.port n = s.port n)
        ∧ ((s.port n).state ≠ .off →
          t.port n = { s.port n with
            state := .off, silence := none, handshake := none, quiet := none, aligned := false, markPending := false,
            readyDue := false, markSlot := none, markValue := none }))
      ∧ (∀ n, (s.port n).state = .run → t.credit n = ⟨0, 0, none⟩)
      ∧ (∀ n, (s.port n).state ≠ .run → t.credit n = s.credit n ∧ t.outbound n = s.outbound n)
      ∧ (∀ n, (s.port n).state = .run → (s.outbound n).transmission = .none → t.outbound n = s.outbound n)
      ∧ (∀ n, (s.port n).state = .run → (s.outbound n).transmission ≠ .none →
        t.outbound n
          = { s.outbound n with transmission := .none, bytesSent := 0, staging := ⟨[], [], []⟩, failure := .none })
      ∧ (∀ n i q b h, (s.port n).state = .run → (s.outbound n).transmission = .forward i q b → headEntry i s = some h →
        (headEntry i t).map (·.forward) = some (.failed .linkLost))
      ∧ (∀ n front e, (s.port n).state = .run → (s.store n).intake = .filling → (s.store n).index = front ++ [e] →
        (t.store n).received = (s.store n).received + 1 ∧ (t.store n).abandoned = (s.store n).abandoned
          ∧ (t.store n).truncated = (s.store n).truncated + (if e.truncated then 1 else 0)
          ∧ ∃ f, (t.store n).index.getLast? = some { e with state := .complete, endKind := some .linkLost, forward := f })
      ∧ (∀ n, (s.port n).state = .run → (t.store n).intake = .between)
      ∧ (∀ n, t.head n = { s.head n with timer := none })
      ∧ ∀ n, (t.store n).index.length = (s.store n).index.length ∧ (t.store n).occupied = (s.store n).occupied

/-- A granted request (R171): the request lodged earliest leaves the list and its slot is reserved. A delivery engine in
SPARE_WAIT goes on to FETCH and reads its record (R100); one in SLOT_WAIT holds its packet slot, makes its leg ACTIVE, and with
bytes to deliver asks for a record (R97, R99), here with none posted; an outbound engine in SLOT_WAIT holds its VALID chain,
which goes to the arbiter (R120, R122), and the command unit in SLOT_WAIT goes on to FETCH while no notice is held (R176, R178).
Free slots (R171) are given by value. -/
def Obligations.GrantedRequestsGoOn : Prop :=
  (∀ (p : PartRing) (s : State),
      freeSlots p s = (s.ring (partRingId p)).size - (s.ring (partRingId p)).count - (s.slot p).reserved)
  ∧ (∀ (n : LineId) (rest : List Requester) (e : IndexEntry) (more : List IndexEntry) (d : Disposition) (s : State),
      s.part.state = .running → (s.slot (.completion n)).waiting = .delivery :: rest → 1 ≤ freeSlots (.completion n) s →
      (s.delivery n).state = .slotWait → (s.store n).index = e :: more → e.state = .complete → e.disposition = some d →
      1 ≤ leftBytes e d → (s.ring (.fill n)).count = 0 → (s.head n).expired = false →
      ∃ t, exec (.slotGranted (.completion n)) s = .next t ∧ frame [.slots, .deliveries, .stores] s t
        ∧ otherSlots (.completion n) s t ∧ otherDeliveries n s t ∧ otherStores n s t
        ∧ t.slot (.completion n)
            = { s.slot (.completion n) with reserved := (s.slot (.completion n)).reserved + 1, waiting := rest }
        ∧ t.delivery n = startedDelivery .recordWait (leftBytes e d) (s.delivery n)
        ∧ t.store n = { s.store n with index := { e with delivery := .active } :: more })
  ∧ (∀ (n : LineId) (rest : List Requester) (s : State), s.part.state = .running →
      (s.slot (.completion n)).waiting = .delivery :: rest → 1 ≤ freeSlots (.completion n) s →
      (s.delivery n).state = .spareWait → (∃ e, headEntry n s = some e ∧ e.disposition ≠ none ∧ e.delivery = .active) →
      ∃ t, exec (.slotGranted (.completion n)) s = .next t ∧ frame [.slots, .deliveries, .bus] s t
        ∧ otherSlots (.completion n) s t ∧ otherDeliveries n s t
        ∧ t.slot (.completion n)
            = { s.slot (.completion n) with reserved := (s.slot (.completion n)).reserved + 1, waiting := rest }
        ∧ t.delivery n = { s.delivery n with state := .fetch, spareSlot := true }
        ∧ t.bus = s.bus ++ [.read ((s.ring (.fill n)).slotAddress (s.ring (.fill n)).consumer) 32])
  ∧ (∀ (n : LineId) (rest : List Requester) (c : Chain) (s : State), s.part.state = .running →
      (s.slot (.completion n)).waiting = .outbound :: rest → 1 ≤ freeSlots (.completion n) s →
      (s.outbound n).waiting = some c → c.verdict = .valid → (s.outbound n).cancel = none →
      ∃ u, exec (.slotGranted (.completion n)) s = .next (arbitrate n u) ∧ frame [.slots, .outbounds] s u
        ∧ otherSlots (.completion n) s u ∧ otherOutbounds n s u
        ∧ u.slot (.completion n)
            = { s.slot (.completion n) with reserved := (s.slot (.completion n)).reserved + 1, waiting := rest }
        ∧ u.outbound n = { s.outbound n with fetch := .holding, held := some c, waiting := none })
  ∧ (∀ s : State, s.part.state = .running → s.command.state = .slotWait → s.held = [] → 1 ≤ freeSlots .notice s →
      ∃ t, exec (.slotGranted .notice) s = .next t ∧ frame [.slots, .command, .bus] s t ∧ otherSlots .notice s t
        ∧ t.slot .notice = { s.slot .notice with reserved := (s.slot .notice).reserved + 1 }
        ∧ t.command = { s.command with state := .fetch, slot := true }
        ∧ t.bus = s.bus ++ [.read ((s.ring .command).slotAddress (s.ring .command).consumer) 32])

/-- PENDING_NOTICE_WRITE (R176, R172): as many held notices as there are free slots leave the set, from its front, each written
at the producer index with its merged count and each raising that index by 1, with its progress write behind it; after the first
the vector is sent if the ring was armed, and the flag is clear. That one step writes all that fit is read from R176 (log entry
22), and that each index has a progress write of its own is the model's (log entry 23). -/
def Obligations.HeldNoticesAreWrittenInOrder : Prop :=
  ∀ s : State, s.part.state = .running → partRingLaw (s.ring .notice) (s.slot .notice) → (s.ring .notice).size ≤ 4096 →
    ∃ t k, exec .pendingNoticeWrite s = .next t ∧ k = min s.held.length (freeSlots .notice s)
      ∧ frame [.rings, .slots, .held, .bus] s t ∧ otherRings .notice s t ∧ otherSlots .notice s t
      ∧ t.held = s.held.drop k
      ∧ t.ring .notice = { s.ring .notice with producer := (s.ring .notice).producer + BitVec.ofNat 16 k }
      ∧ t.slot .notice = { s.slot .notice with armed := (s.slot .notice).armed && decide (k = 0) }
      ∧ t.bus = s.bus ++ ((s.held.take k).mapIdx (fun i h =>
          [HostOp.entry ((s.ring .notice).slotAddress ((s.ring .notice).producer + BitVec.ofNat 16 i))
              (recordOf (noticeBytes h.notice h.merged)),
            .progressIndex (s.part.progress + 2) ((s.ring .notice).producer + BitVec.ofNat 16 i + 1)]
          ++ if i = 0 ∧ (s.slot .notice).armed = true then [.interrupt (s.ring .notice).vector] else [])).flatten

/-- An entry written to a part-written ring (R172): the entry at the slot of the producer index, the index raised by 1, its
progress write (one for each index, log entry 23), and the vector if the ring is armed, which clears the flag (R173). One
written against a reservation is written the same way, and the reservation is spent (R172). An unsolicited notice (R174) is
written so at once with merged count 0 while a slot is free and no notice is held; otherwise it joins the set (R175): it
replaces the notice of its key, whose merged count rises by 1 and stays at 255, or joins with 0; every other key is as before,
and the set stays in the order of R176 with one notice for each key. The keys are given by value: two notices share a key
exactly when they are of one kind and one line, or of POST_REJECTED and one ring number, NO_RING being one, and keys are ordered
by kind and then by line or ring, NO_RING last (R175, R176, `noticePlace`). -/
def Obligations.EntriesAreWrittenInTheOrderOfR172 : Prop :=
  (∀ (p : PartRing) (bytes : List Byte) (s : State),
      let g := s.ring (partRingId p)
      let t := writeEntry p bytes s
      frame [.rings, .slots, .bus] s t ∧ otherRings (partRingId p) s t ∧ otherSlots p s t
        ∧ t.ring (partRingId p) = { g with producer := g.producer + 1 }
        ∧ t.slot p = { s.slot p with armed := false }
        ∧ t.bus = s.bus
            ++ [.entry (g.base + BitVec.ofNat 64 (32 * (g.producer.toNat % g.size))) (recordOf bytes),
              .progressIndex (s.part.progress + BitVec.ofNat 64 (2 * ringNumber (partRingId p))) (g.producer + 1)]
            ++ (if (s.slot p).armed then [.interrupt g.vector] else []))
  ∧ (∀ (p : PartRing) (bytes : List Byte) (s : State),
      ∃ u, writeReserved p bytes s = writeEntry p bytes u ∧ frame [.slots] s u ∧ otherSlots p s u
        ∧ u.slot p = { s.slot p with reserved := (s.slot p).reserved - 1 })
  ∧ (∀ (nt : Notice) (s : State),
    (s.held = [] → 1 ≤ freeSlots .notice s → postNotice nt s = writeEntry .notice (noticeBytes nt 0) s)
    ∧ (s.held ≠ [] ∨ freeSlots .notice s = 0 → postNotice nt s = { s with held := holdNotice nt s.held }))
  ∧ (∀ a b : Notice,
    (noticeKey a = noticeKey b ↔ noticePlace a = noticePlace b)
      ∧ (noticeKey a < noticeKey b ↔
        (noticePlace a).1 < (noticePlace b).1
          ∨ ((noticePlace a).1 = (noticePlace b).1 ∧ (noticePlace a).2 < (noticePlace b).2)))
  ∧ ∀ (nt : Notice) (held : List HeldNotice), heldInOrder held →
      heldInOrder (holdNotice nt held)
      ∧ (∀ h ∈ holdNotice nt held, noticeKey h.notice ≠ noticeKey nt → h ∈ held)
      ∧ (∀ h ∈ held, noticeKey h.notice ≠ noticeKey nt → h ∈ holdNotice nt held)
      ∧ (∀ h ∈ held, noticeKey h.notice = noticeKey nt →
        (⟨nt, if h.merged = 255 then 255 else h.merged + 1⟩ : HeldNotice) ∈ holdNotice nt held)
      ∧ ((∀ h ∈ held, noticeKey h.notice ≠ noticeKey nt) → (⟨nt, 0⟩ : HeldNotice) ∈ holdNotice nt held)

/-- An entry's 32 bytes are the bytes of its layout in order, and 0 beyond them (10.6, R197); every entry the part writes is
given 32 bytes. Where each field lies: DELIVERED (R110), FILL_REJECTED (R103) and SENT (R136), COMMAND_DONE (R181) and the seven
notices (R22, R57, R89, R134, R132, R150, R168), and that every byte and bit that a layout does not give is 0 (R197); and the
codes that they show (10.1, 10.6). Words go in with their low byte first (10.1), and the two checks of a fill record (R102) are
given by value. -/
def Obligations.EntriesAreLaidOutAs106Says : Prop :=
  (∀ (bytes : List Byte) (k : Nat), bytes.length ≤ 32 → k < 32 → recordByte (recordOf bytes) k = bytes.getD k 0)
  ∧ (∀ v : BitVec 16, le16 v = [v.extractLsb' 0 8, v.extractLsb' 8 8])
  ∧ (∀ v : BitVec 32, le32 v = [v.extractLsb' 0 8, v.extractLsb' 8 8, v.extractLsb' 16 8, v.extractLsb' 24 8])
  ∧ (∀ f : FillRecord,
      sizeCheckFails f = decide (f.size = 0 ∨ f.size.toNat % 8 ≠ 0 ∨ 65536 < f.size.toNat)
        ∧ alignmentCheckFails f = decide (f.address.toNat % 8 ≠ 0))
  ∧ (∀ d : Delivered, (deliveredBytes d).length = 32) ∧ (∀ f : FillRejected, (fillRejectedBytes f).length = 32)
  ∧ (∀ e : Sent, (sentBytes e).length = 32)
  ∧ (∀ d : CommandDone, d.result.length ≤ 24 → (commandDoneBytes d).length = 32)
  ∧ (∀ (nt : Notice) (merged : BitVec 8), (noticeBytes nt merged).length = 32)
  ∧ [LineState.off, .listen, .connect, .run, .recover].map lineStateCode = [0, 1, 2, 3, 4]
  ∧ [LineCause.none, .handshakeTimeout, .silence, .codeError, .remoteRestart, .creditViolation, .grantOverflow,
      .stopped].map lineCauseCode = [0, 1, 2, 3, 4, 5, 6, 7]
  ∧ [some EndKind.good, some .abandon, some .linkLost, none].map endKindCode = [0, 1, 2, 3]
  ∧ (∀ c, [Leg.absent, .pending, .active, .done, .failed c].map legStateCode = [0, 1, 2, 3, 4])
  ∧ [Leg.failed .expired, .failed .flushed, .failed .linkLost, .failed .storeFault, .absent, .pending, .active,
      .done].map legCauseCode = [1, 2, 3, 4, 0, 0, 0, 0]
  ∧ [CommandStatus.ok, .unknownOpcode, .badLine, .badField, .notConfigured, .lineNotOff, .lineRunning, .storeNotEmpty,
      .regionRange, .regionOverlap].map commandStatusCode = [0, 1, 2, 3, 4, 5, 6, 7, 8, 9]
  ∧ [SentStatus.ok, .linkLost, .hostReadError, .badChain, .cancelled].map sentStatusCode = [0, 1, 2, 3, 4]
  ∧ [PostReason.countRange, .pastProducer, .noRing].map postReasonCode = [0, 1, 2]
  ∧ (∀ d : Delivered,
    let r := recordOf (deliveredBytes d)
    recordByte r 0 = 1 ∧ (recordByte r 1).toNat = lineNumber d.line ∧ recordByte r 2 = 0
      ∧ recordByte r 3 = endKindCode d.endKind ∧ recordU16 r 4 = d.sequence ∧ recordByte r 6 = d.tag.getD 0
      ∧ (recordByte r 7).getLsbD 0 = d.truncated ∧ (recordByte r 7).getLsbD 1 = d.stripped
      ∧ (recordByte r 7).getLsbD 2 = d.short ∧ (recordByte r 7).getLsbD 3 = d.expired
      ∧ (recordByte r 7).getLsbD 4 = d.faultPosition.isSome ∧ (recordByte r 7).getLsbD 5 = d.tag.isSome
      ∧ (recordByte r 7).getLsbD 6 = false ∧ (recordByte r 7).getLsbD 7 = false
      ∧ recordU16 r 8 = BitVec.ofNat 16 d.delivered ∧ recordU16 r 10 = BitVec.ofNat 16 d.received
      ∧ recordU16 r 12 = d.firstIndex ∧ recordByte r 14 = BitVec.ofNat 8 d.recordsUsed ∧ recordByte r 15 = 0
      ∧ recordU32 r 16 = d.stamp.epoch ++ d.stamp.fine ∧ recordU32 r 20 = d.firstCookie
      ∧ recordU16 r 24 = BitVec.ofNat 16 (d.faultPosition.getD 0) ∧ recordU16 r 26 = 0 ∧ recordU32 r 28 = 0)
  ∧ (∀ f : FillRejected,
    let r := recordOf (fillRejectedBytes f)
    recordByte r 0 = 2 ∧ (recordByte r 1).toNat = lineNumber f.line ∧ recordByte r 2 = 0
      ∧ (recordByte r 3).getLsbD 0 = sizeCheckFails f.record ∧ (recordByte r 3).getLsbD 1 = alignmentCheckFails f.record
      ∧ (recordByte r 3).extractLsb' 2 6 = 0 ∧ recordU16 r 4 = f.record.index ∧ recordU16 r 6 = f.sequence
      ∧ recordU32 r 8 = f.record.size ∧ recordU32 r 12 = f.record.cookie ∧ recordU64 r 16 = f.record.address
      ∧ recordU64 r 24 = 0)
  ∧ (∀ e : Sent,
    let r := recordOf (sentBytes e)
    recordByte r 0 = 3 ∧ (recordByte r 1).toNat = lineNumber e.line ∧ recordByte r 2 = 0
      ∧ recordByte r 3 = sentStatusCode e.status ∧ recordU16 r 4 = e.firstIndex ∧ recordByte r 6 = BitVec.ofNat 8 e.count
      ∧ recordByte r 7 = endKindCode e.endKind ∧ recordU16 r 8 = BitVec.ofNat 16 e.bytesSent ∧ recordU16 r 10 = 0
      ∧ recordU32 r 12 = e.lastCookie ∧ recordU64 r 16 = 0 ∧ recordU64 r 24 = 0)
  ∧ (∀ d : CommandDone, d.result.length ≤ 24 →
    let r := recordOf (commandDoneBytes d)
    recordByte r 0 = 0x10 ∧ recordByte r 1 = BitVec.ofNat 8 d.line ∧ recordByte r 2 = 0
      ∧ recordByte r 3 = commandStatusCode d.status ∧ recordU16 r 4 = d.index ∧ recordByte r 6 = d.opcode ∧ recordByte r 7 = 0
      ∧ ∀ k, k < 24 → recordByte r (8 + k) = d.result.getD k 0)
  ∧ ∀ m : BitVec 8,
    (∀ n x c, let r := recordOf (noticeBytes (.linkState n x c) m)
      recordByte r 0 = 0x11 ∧ (recordByte r 1).toNat = lineNumber n ∧ recordByte r 2 = m ∧ recordByte r 3 = lineStateCode x
        ∧ recordByte r 4 = lineCauseCode c
        ∧ ∀ k, 5 ≤ k → k < 32 → recordByte r k = 0)
    ∧ (∀ n q c, let r := recordOf (noticeBytes (.dropped n q c) m)
      recordByte r 0 = 0x12 ∧ (recordByte r 1).toNat = lineNumber n ∧ recordByte r 2 = m
        ∧ recordByte r 3 = (if q = none then 0 else 1) ∧ recordU16 r 4 = q.getD 0 ∧ (recordByte r 6).getLsbD 0 = q.isSome
        ∧ (recordByte r 6).extractLsb' 1 7 = 0 ∧ recordByte r 7 = 0 ∧ recordU32 r 8 = c
        ∧ ∀ k, 12 ≤ k → k < 32 → recordByte r k = 0)
    ∧ (∀ n q g x y c, let r := recordOf (noticeBytes (.headExpired n q g x y c) m)
      recordByte r 0 = 0x13 ∧ (recordByte r 1).toNat = lineNumber n ∧ recordByte r 2 = m ∧ recordByte r 3 = 0
        ∧ recordU16 r 4 = q ∧ recordByte r 6 = g.getD 0 ∧ (recordByte r 7).getLsbD 0 = g.isSome
        ∧ (recordByte r 7).extractLsb' 1 7 = 0 ∧ recordByte r 8 = legStateCode x
        ∧ recordByte r 9 = legCauseCode x ∧ recordByte r 10 = legStateCode y ∧ recordByte r 11 = legCauseCode y
        ∧ recordU32 r 12 = c ∧ ∀ k, 16 ≤ k → k < 32 → recordByte r k = 0)
    ∧ (∀ i n q g b, let r := recordOf (noticeBytes (.forwardCut i n q g b) m)
      recordByte r 0 = 0x14 ∧ (recordByte r 1).toNat = lineNumber i ∧ recordByte r 2 = m
        ∧ (recordByte r 3).toNat = lineNumber n ∧ recordU16 r 4 = q ∧ recordByte r 6 = g.getD 0
        ∧ (recordByte r 7).getLsbD 0 = g.isSome ∧ (recordByte r 7).extractLsb' 1 7 = 0 ∧ recordU16 r 8 = b
        ∧ ∀ k, 10 ≤ k → k < 32 → recordByte r k = 0)
    ∧ (∀ i n q g b o, let r := recordOf (noticeBytes (.storeFault i n q g b o) m)
      recordByte r 0 = 0x15 ∧ (recordByte r 1).toNat = lineNumber i ∧ recordByte r 2 = m
        ∧ (recordByte r 3).toNat = lineNumber n ∧ recordU16 r 4 = q ∧ recordByte r 6 = g.getD 0
        ∧ (recordByte r 7).getLsbD 0 = g.isSome ∧ (recordByte r 7).extractLsb' 1 7 = 0 ∧ recordU16 r 8 = b
        ∧ recordU16 r 10 = 0 ∧ recordU32 r 12 = o ∧ ∀ k, 16 ≤ k → k < 32 → recordByte r k = 0)
    ∧ (∀ i v o k c, let r := recordOf (noticeBytes (.mark i v o k c) m)
      recordByte r 0 = 0x16 ∧ (recordByte r 1).toNat = (i.map lineNumber).getD 0 ∧ recordByte r 2 = m
        ∧ recordByte r 3 = (if i = none then 0 else 1) ∧ recordByte r 4 = v ∧ recordByte r 5 = o
        ∧ (recordByte r 6).getLsbD 0 = k ∧ (recordByte r 6).extractLsb' 1 7 = 0 ∧ recordByte r 7 = 0 ∧ recordU32 r 8 = c
        ∧ ∀ j, 12 ≤ j → j < 32 → recordByte r j = 0)
    ∧ (∀ g x i k v c, let r := recordOf (noticeBytes (.postRejected g x i k v c) m)
      recordByte r 0 = 0x17 ∧ (recordByte r 1).toNat = g.toNat ∧ recordByte r 2 = m ∧ recordByte r 3 = postReasonCode x
        ∧ recordU16 r 4 = i ∧ (recordByte r 6).getLsbD 0 = k ∧ (recordByte r 6).extractLsb' 1 7 = 0 ∧ recordByte r 7 = 0
        ∧ recordU16 r 8 = v ∧ recordU16 r 10 = c ∧ ∀ j, 12 ≤ j → j < 32 → recordByte r j = 0)

/-! ## The command unit -/

/-- COMMAND_READ_DONE (R178, R179): the consumer index rises and is written to the progress block (log entry 23), and the
command is taken into EXECUTE with the index at which it stood; a command that fails a check ends with its status, and no block
has changed. A command whose check fails when it comes to be carried out is refused too (R179; that the check is made again is
log entry 7): no block but the command unit and the notice ring is touched. The current command of a kind is the one taken, in
EXECUTE and not waiting (R180). -/
def Obligations.CommandReadsTakeTheCommand : Prop :=
  (∀ (e : Record) (s : State), s.part.state = .running → s.command.state = .fetch →
    ∃ u, frame [.rings, .command, .bus] s u ∧ otherRings .command s u
      ∧ u.ring .command = { s.ring .command with consumer := (s.ring .command).consumer + 1 }
      ∧ u.command = { s.command with
          state := .execute, current := some ⟨(s.ring .command).consumer, e⟩, wait := .none }
      ∧ u.bus = s.bus ++ [.progressIndex s.part.progress ((s.ring .command).consumer + 1)]
      ∧ (checkCommand e s = none → exec (.commandReadDone (some e)) s = .next u)
      ∧ ∀ r, checkCommand e s = some r → exec (.commandReadDone (some e)) s = .next (endCommand r.status r.result u))
  ∧ (∀ (k : CommandKind) (e : Record) (s : State),
    currentOf k s = some e ↔ s.part.state = .running ∧ s.command.state = .execute ∧ s.command.wait = .none
      ∧ commandKind (recordByte e 0) = some k ∧ ∃ i, s.command.current = some ⟨i, e⟩)
  ∧ ∀ (c : Instr) (k : CommandKind) (e : Record) (r : CommandRefusal) (s : State),
    (c, k) ∈ [(.linkConfigure, .linkConfigure), (.linkStart, .linkStart), (.linkStop, .linkStop), (.linkFlush, .linkFlush),
      (.linkHold, .linkHold), (.sendCancel, .sendCancel), (.tableWrite, .tableWrite), (.tableRead, .tableRead),
      (.timeSet, .timeSet), (.queryLink, .queryLink)] →
    currentOf k s = some e → checkCommand e s = some r →
    exec c s = .next (endCommand r.status r.result s)
      ∧ frame [.rings, .slots, .command, .bus] s (endCommand r.status r.result s)
      ∧ otherRings .notice s (endCommand r.status r.result s) ∧ otherSlots .notice s (endCommand r.status r.result s)

/-- The checks of a command in their order (R179, R183): opcode, line, parameters, state; the first that fails gives the status.
The ten opcodes (10.4), every other one unknown, and the line numbers are given by value. The line named in a REGION_OVERLAP
(R64, R183) is the lowest-numbered other configured line whose region shares a DDR address, and none is named exactly when none
does. -/
def Obligations.ChecksAreMadeInOrder : Prop :=
  (∀ (e : Record) (s : State), commandKind (recordByte e 0) = none → checkCommand e s = some ⟨.unknownOpcode, []⟩)
  ∧ (∀ (e : Record) (k : CommandKind) (s : State), commandKind (recordByte e 0) = some k → k ≠ .timeSet →
      3 < (recordByte e 1).toNat → checkCommand e s = some ⟨.badLine, []⟩)
  ∧ (∀ (e : Record) (n : LineId) (s : State), recordByte e 0 = 0x01 → (recordByte e 1).toNat = lineNumber n →
      checkCommand e s =
        if (recordU16 e 12).toNat < 16 ∨ 1 < (recordByte e 18).toNat ∨ 1 < (recordByte e 19).toNat
            ∨ 1 < (recordByte e 20).toNat ∨ 1 < (recordByte e 21).toNat ∨ 1 < (recordByte e 22).toNat
            ∨ (recordU16 e 16).toNat < 10 ∨ 400 < (recordU16 e 16).toNat ∨ (recordU16 e 16).toNat % 10 ≠ 0 then
          some ⟨.badField, []⟩
        else if (recordU32 e 4).toNat % 65536 ≠ 0 ∨ (recordU32 e 8).toNat % 65536 ≠ 0 ∨ (recordU32 e 8).toNat < 65536
            ∨ 268435456 < (recordU32 e 8).toNat ∨ 1073741824 < (recordU32 e 4).toNat + (recordU32 e 8).toNat then
          some ⟨.regionRange, []⟩
        else if (s.port n).state ≠ .off then some ⟨.lineNotOff, []⟩
        else if (s.store n).index ≠ [] then some ⟨.storeNotEmpty, []⟩
        else (overlappingLine (recordU32 e 4).toNat (recordU32 e 8).toNat n s).map
          (fun m => ⟨.regionOverlap, [BitVec.ofNat 8 (lineNumber m)]⟩))
  ∧ (∀ (e : Record) (n : LineId) (s : State), recordByte e 0 = 0x02 → (recordByte e 1).toNat = lineNumber n →
      checkCommand e s =
        if (s.port n).configured = false then some ⟨.notConfigured, []⟩
        else if (s.port n).state ≠ .off then some ⟨.lineNotOff, []⟩ else none)
  ∧ (∀ (e : Record) (n : LineId) (s : State), (recordByte e 0 = 0x03 ∨ recordByte e 0 = 0x04) →
      (recordByte e 1).toNat = lineNumber n → checkCommand e s = none)
  ∧ (∀ (e : Record) (n : LineId) (s : State), recordByte e 0 = 0x05 → (recordByte e 1).toNat = lineNumber n →
      checkCommand e s = if 1 < (recordByte e 4).toNat then some ⟨.badField, []⟩ else none)
  ∧ (∀ (e : Record) (n : LineId) (s : State), recordByte e 0 = 0x06 → (recordByte e 1).toNat = lineNumber n →
      checkCommand e s =
        if (s.port n).configured = false then some ⟨.notConfigured, []⟩
        else if (s.port n).state = .run then some ⟨.lineRunning, []⟩ else none)
  ∧ (∀ (e : Record) (n : LineId) (s : State), (recordByte e 0 = 0x07 ∨ recordByte e 0 = 0x08) →
      (recordByte e 1).toNat = lineNumber n →
      checkCommand e s =
        if (recordByte e 6).toNat < 1 ∨ 16 < (recordByte e 6).toNat ∨ 256 < (recordU16 e 4).toNat
            ∨ 257 < (recordU16 e 4).toNat + (recordByte e 6).toNat then some ⟨.badField, []⟩ else none)
  ∧ (∀ (e : Record) (s : State), recordByte e 0 = 0x09 →
      checkCommand e s =
        if recordByte e 5 ∉ [0, 1, 4, 5, 6, 7] ∨ recordU16 e 6 = 0 ∨ 1 < (recordByte e 8).toNat then some ⟨.badField, []⟩
        else none)
  ∧ (∀ (e : Record) (n : LineId) (s : State), recordByte e 0 = 0x0A → (recordByte e 1).toNat = lineNumber n →
      checkCommand e s =
        if 1 < (recordByte e 4).toNat ∨ 1 < (recordByte e 5).toNat then some ⟨.badField, []⟩ else none)
  ∧ (List.range 12).map (fun k => commandKind (BitVec.ofNat 8 k))
      = [none, some .linkConfigure, some .linkStart, some .linkStop, some .linkFlush, some .linkHold, some .sendCancel,
        some .tableWrite, some .tableRead, some .timeSet, some .queryLink, none]
  ∧ (∀ op : Byte, 0x0A < op.toNat → commandKind op = none)
  ∧ [LineId.l0, .l1, .l2, .l3].map lineNumber = [0, 1, 2, 3]
  ∧ (∀ (e : Record) (n : LineId), opcode e = recordByte e 0 ∧ (commandLine e = some n ↔ (recordByte e 1).toNat = lineNumber n))
  ∧ ∀ (base size : Nat) (n : LineId) (s : State), 0 < size → (∀ m, (s.port m).configured = true → 0 < (s.store m).size) →
      (∀ m, overlappingLine base size n s = some m ↔
        (m ≠ n ∧ (s.port m).configured = true
            ∧ ∃ a, base ≤ a ∧ a < base + size ∧ (s.store m).base ≤ a ∧ a < (s.store m).base + (s.store m).size)
          ∧ ∀ k, lineNumber k < lineNumber m → k ≠ n → (s.port k).configured = true →
            ¬ ∃ a, base ≤ a ∧ a < base + size ∧ (s.store k).base ≤ a ∧ a < (s.store k).base + (s.store k).size)
      ∧ (overlappingLine base size n s = none ↔
        ∀ m, m ≠ n → (s.port m).configured = true →
          ¬ ∃ a, base ≤ a ∧ a < base + size ∧ (s.store m).base ≤ a ∧ a < (s.store m).base + (s.store m).size)

/-- The end of a command (R181, R172, R178): COMMAND_DONE stands at the producer index of the notice ring with its progress
write (log entry 23) behind it, the reservation is spent, and the unit is IDLE, or asks for the next command when one is posted. -/
def Obligations.EndedCommandsAreReported : Prop :=
  ∀ (status : CommandStatus) (result : List Byte) (c : CommandEntry) (s : State), s.command.current = some c →
    1 ≤ (s.slot .notice).reserved → result.length ≤ 24 →
    ∃ d rest, endCommand status result s
        = pollCommand { writeReserved .notice (commandDoneBytes d) s with command := ⟨.idle, false, none, .none⟩ }
      ∧ d.index = c.index ∧ d.opcode = recordByte c.entry 0 ∧ d.status = status ∧ d.result = result
      ∧ (∀ k, commandKind (recordByte c.entry 0) = some k → k ≠ .timeSet → (recordByte c.entry 1).toNat ≤ 3 →
        d.line = (recordByte c.entry 1).toNat)
      ∧ ((commandKind (recordByte c.entry 0) = none ∨ commandKind (recordByte c.entry 0) = some .timeSet
          ∨ 3 < (recordByte c.entry 1).toNat) → d.line = 0)
      ∧ (endCommand status result s).bus = s.bus
          ++ [.entry ((s.ring .notice).slotAddress (s.ring .notice).producer) (recordOf (commandDoneBytes d)),
            .progressIndex (s.part.progress + 2) ((s.ring .notice).producer + 1)] ++ rest
      ∧ frame [.rings, .slots, .command, .bus] s (endCommand status result s)
      ∧ otherRings .notice s (endCommand status result s) ∧ otherSlots .notice s (endCommand status result s)
      ∧ (endCommand status result s).ring .notice = { s.ring .notice with producer := (s.ring .notice).producer + 1 }
      ∧ ((s.ring .command).count = 0 →
        (endCommand status result s).command = ⟨.idle, false, none, .none⟩
          ∧ ((endCommand status result s).slot .notice).reserved = (s.slot .notice).reserved - 1)
      ∧ (1 ≤ (s.ring .command).count →
        (endCommand status result s).command
          = if s.held = [] ∧ 1 ≤ freeSlots .notice (writeReserved .notice (commandDoneBytes d) s)
            then ⟨.fetch, true, none, .none⟩ else ⟨.slotWait, false, none, .none⟩)

/-- LINK_CONFIGURE (R184, R7, R66, R73): the settings of the line port, the store and the head engine from the entry's fields,
their counts 0; the table, hold, the delivery engine and every other line keep their state, and the outbound engine may begin to
take a record (R118). -/
def Obligations.LinkConfigureRecordsItsSettings : Prop :=
  ∀ (n : LineId) (e : Record) (index : BitVec 16) (s : State), executing .linkConfigure n e index s →
    ∃ u, exec .linkConfigure s = .next (endCommand .ok [] u)
      ∧ frame [.ports, .stores, .heads, .outbounds, .bus] s u ∧ otherPorts n s u ∧ otherStores n s u ∧ otherHeads n s u
      ∧ otherOutbounds n s u
      ∧ u.port n = { s.port n with
          configured := true, rate := (recordU16 e 16).toNat, errors := 0, lastCause := .none,
          initiative := if recordByte e 20 = 1 then .active else .passive,
          autoRestart := decide (recordByte e 21 = 1), markOut := decide (recordByte e 22 = 1) }
      ∧ u.store n = { s.store n with
          base := (recordU32 e 4).toNat, size := (recordU32 e 8).toNat, maxLength := (recordU16 e 12).toNat,
          policy := if recordByte e 18 = 1 then .dropNew else .lossless,
          writeOffset := 0, readOffset := 0, occupied := 0, intake := .between, sequence := 0,
          received := 0, truncated := 0, abandoned := 0, dropped := 0 }
      ∧ u.head n = { s.head n with
          badRule := if recordByte e 19 = 1 then .drop else .keep, limit := (recordU16 e 14).toNat,
          discardedCount := 0, expiredCount := 0 }
      ∧ (((s.outbound n).fetch = .waitRecord ∧ (s.outbound n).held = none ∧ (s.outbound n).cancel = none
            ∧ 1 ≤ (s.ring (.send n)).count) →
          u.outbound n = { s.outbound n with fetch := .fetch }
            ∧ u.bus = s.bus ++ [.read ((s.ring (.send n)).slotAddress (s.ring (.send n)).consumer) 32])
      ∧ (¬ ((s.outbound n).fetch = .waitRecord ∧ (s.outbound n).held = none ∧ (s.outbound n).cancel = none
            ∧ 1 ≤ (s.ring (.send n)).count) →
          u.outbound n = s.outbound n ∧ u.bus = s.bus)

/-- LINK_START (R185, R9): the line is in LISTEN with no timer running, LINK_STATE (LISTEN, NONE) goes to the notice writer, and
the command ends OK. LINK_STOP (R186, R21): in OFF nothing changes; otherwise the line is in OFF at rest, with LINK_STATE (OFF,
STOPPED), its error record kept; a line that was in RUN undergoes loss of RUN too (R23, R53, R133, R134). That the notice is
written before the SENT entry (log entry 2) and before FORWARD_CUT (log entry 9) is the model's order: R23 and R186 have each
block write its own as it comes to it. The result is the state before. -/
def Obligations.LinkStartAndStopMoveTheLine : Prop :=
  (∀ (n : LineId) (e : Record) (index : BitVec 16) (s : State), executing .linkStart n e index s →
      ∃ u, exec .linkStart s = .next (endCommand .ok [] u) ∧ frame (.ports :: noticeBlocks) s u ∧ otherPorts n s u
        ∧ noticed [.linkState n .listen .none] s u
        ∧ u.port n = { s.port n with
            state := .listen, silence := none, handshake := none, quiet := none, aligned := false, markPending := false,
            readyDue := false, markSlot := none, markValue := none })
  ∧ ∀ (n : LineId) (e : Record) (index : BitVec 16) (s : State), executing .linkStop n e index s →
    ((s.port n).state = .off → exec .linkStop s = .next (endCommand .ok [0] s))
    ∧ ((s.port n).state ≠ .off → (s.port n).state ≠ .run →
      ∃ u, exec .linkStop s = .next (endCommand .ok [lineStateCode (s.port n).state] u)
        ∧ frame (.ports :: noticeBlocks) s u ∧ otherPorts n s u ∧ noticed [.linkState n .off .stopped] s u
        ∧ u.port n = { s.port n with
            state := .off, silence := none, handshake := none, quiet := none, aligned := false, markPending := false,
            readyDue := false, markSlot := none, markValue := none })
    ∧ ((s.port n).state = .run →
      ∃ u, exec .linkStop s = .next (endCommand .ok [3] u) ∧ otherPorts n s u
        ∧ u.port n = { s.port n with
            state := .off, silence := none, handshake := none, quiet := none, aligned := false, markPending := false,
            readyDue := false, markSlot := none, markValue := none }
        ∧ lostRun n (.linkState n .off .stopped) s u)

/-- LINK_FLUSH (R187, R90, R91): an empty index, or an OPEN head, gives 0 at once; complete entries behind an ACTIVE head are
released, counted, and the command waits for the head; an OPEN entry behind them stays, its bytes moved down to follow the
head's, each word that takes a byte of an uncorrectable one marked (R62). A head whose one live leg is a PENDING forward, and
one not yet decided, go too, counted discarded. In every case the line's offer is worked out again from the store as it then
stands, and outstanding and allowance stay (R33, R58). How the command that waits ends is said where its head retires
(`headRetired`). -/
def Obligations.LinkFlushReleasesAndCounts : Prop :=
  ∀ (n : LineId) (e : Record) (index : BitVec 16) (s : State), executing .linkFlush n e index s →
    ((s.store n).index = [] →
      ∃ u, exec .linkFlush s = .next (endCommand .ok [0, 0, 0, 0] u) ∧ frame [.credits] s u ∧ otherCredits n s u
        ∧ u.credit n = reckoned n (s.credit n) s)
    ∧ (∀ h rest, (s.store n).index = h :: rest → rest ≠ [] → (∀ x ∈ rest, x.state = .complete) → h.state = .complete →
      h.disposition ≠ none → h.delivery = .active → h.forward ≠ .pending → (s.head n).flush = none →
      (s.delivery n).state ≠ .slotWait →
      ∃ t, exec .linkFlush s = .next t ∧ frame [.credits, .stores, .heads, .command] s t ∧ otherCredits n s t
        ∧ otherStores n s t ∧ otherHeads n s t ∧ t.credit n = reckoned n (s.credit n) t
        ∧ t.command = { s.command with wait := .flush n }
        ∧ t.head n = { s.head n with
            flush := some (BitVec.ofNat 32 rest.length),
            discardedCount := (s.head n).discardedCount + BitVec.ofNat 32 rest.length }
        ∧ t.store n = { s.store n with
            index := [h], occupied := (s.store n).occupied - (rest.map (·.stored)).sum,
            writeOffset := (h.offset + h.stored) % (s.store n).size })
    ∧ (∀ h rest y, (s.store n).index = h :: (rest ++ [y]) → rest ≠ [] → (∀ x ∈ rest, x.state = .complete) →
      y.state = .arriving → h.state = .complete → h.disposition ≠ none → h.delivery = .active → h.forward ≠ .pending →
      (s.head n).flush = none → (s.delivery n).state ≠ .slotWait → s.ddr.wf = true → y.stored ≤ (s.store n).size →
      (s.store n).base + (s.store n).size ≤ 1073741824 →
      ∃ t next, exec .linkFlush s = .next t ∧ next = (h.offset + h.stored) % (s.store n).size
        ∧ frame [.credits, .stores, .heads, .command, .memory] s t ∧ otherCredits n s t ∧ otherStores n s t
        ∧ otherHeads n s t ∧ t.credit n = reckoned n (s.credit n) t ∧ t.command = { s.command with wait := .flush n }
        ∧ t.head n = { s.head n with
            flush := some (BitVec.ofNat 32 rest.length),
            discardedCount := (s.head n).discardedCount + BitVec.ofNat 32 rest.length }
        ∧ t.store n = { s.store n with
            index := [h, { y with offset := next }], occupied := (s.store n).occupied - (rest.map (·.stored)).sum,
            writeOffset := (next + y.stored) % (s.store n).size }
        ∧ (∀ k, k < y.stored → cellRead t.ddr.cells ((s.store n).address (next + k))
            = cellRead s.ddr.cells ((s.store n).address (y.offset + k)))
        ∧ (∀ a, (∀ k, k < y.stored → a ≠ (s.store n).address (next + k)) →
          cellRead t.ddr.cells a = cellRead s.ddr.cells a)
        ∧ ∀ a, t.ddr.bad a = true ↔ s.ddr.bad a = true ∨ ∃ k, k < y.stored
            ∧ a / 8 = (s.store n).address (next + k) / 8 ∧ s.ddr.bad ((s.store n).address (y.offset + k)) = true)
    ∧ (∀ h, (s.store n).index = [h] → h.state = .arriving →
      ∃ u, exec .linkFlush s = .next (endCommand .ok [0, 0, 0, 0] u) ∧ frame [.credits] s u ∧ otherCredits n s u
        ∧ u.credit n = reckoned n (s.credit n) s)
    ∧ (∀ h rest, (s.store n).index = h :: rest → (∀ x ∈ rest, x.state = .complete) → h.state = .complete →
      h.disposition = none → h.delivery = .absent → h.forward = .absent → (s.head n).expired = false →
      ∃ u, exec .linkFlush s = .next (endCommand .ok (le32 (BitVec.ofNat 32 (rest.length + 1))) u)
        ∧ frame [.credits, .stores, .heads, .command] s u ∧ otherCredits n s u ∧ otherStores n s u ∧ otherHeads n s u
        ∧ (u.store n).index = [] ∧ u.credit n = reckoned n (s.credit n) u
        ∧ u.head n = { s.head n with
            discardedCount := (s.head n).discardedCount + BitVec.ofNat 32 (rest.length + 1), flush := none, timer := none })
    ∧ (∀ h rest, (s.store n).index = h :: rest → (∀ x ∈ rest, x.state = .complete) → h.state = .complete →
      h.disposition ≠ none → h.delivery = .absent → h.forward = .pending → (s.head n).expired = false →
      ∃ u, exec .linkFlush s = .next (endCommand .ok (le32 (BitVec.ofNat 32 (rest.length + 1))) u)
        ∧ ((s.delivery n).state ≠ .slotWait → frame [.credits, .stores, .heads, .command] s u) ∧ sameMemory s u
        ∧ otherCredits n s u ∧ otherStores n s u ∧ otherHeads n s u
        ∧ (u.store n).index = [] ∧ u.credit n = reckoned n (s.credit n) u
        ∧ u.head n = { s.head n with
            discardedCount := (s.head n).discardedCount + BitVec.ofNat 32 (rest.length + 1), flush := none, timer := none })

/-- LINK_HOLD (R188, R83, R84): the value in force changes nothing; on sets hold, stops the timer and withdraws an offer that
waits for its slot. Off clears hold; with no head, or an OPEN one, nothing else changes (11.4, step 6). For a decided head the
timer starts afresh unless it is expired or the limit is 0, and the PENDING legs are offered again, each where the other is
absent, at its end, running or PENDING too: a forward leg is granted at a destination in RUN with no packet in transmission and
no other requester (R79), and otherwise waits at its arbiter; a delivery leg is taken up with its packet slot and needs a
record, here with none posted (R97, R99), or waits in SLOT_WAIT with no slot free. The result is the value before. -/
def Obligations.LinkHoldSetsOrClearsHold : Prop :=
  ∀ (n : LineId) (e : Record) (index : BitVec 16) (s : State), executing .linkHold n e index s →
    ((s.head n).hold = decide (recordByte e 4 = 1) →
      exec .linkHold s = .next (endCommand .ok [if (s.head n).hold then 1 else 0] s))
    ∧ ((s.head n).hold = false → recordByte e 4 = 1 →
      ∃ u, exec .linkHold s = .next (endCommand .ok [0] u) ∧ frame [.heads, .deliveries, .slots] s u ∧ otherHeads n s u
        ∧ otherDeliveries n s u ∧ otherSlots (.completion n) s u
        ∧ u.head n = { s.head n with hold := true, timer := none }
        ∧ ((s.delivery n).state ≠ .slotWait → u.delivery n = s.delivery n ∧ u.slots = s.slots)
        ∧ ((s.delivery n).state = .slotWait → (u.delivery n).state = .idle ∧ (u.delivery n).leg = false
          ∧ .delivery ∉ (u.slot (.completion n)).waiting))
    ∧ ((s.head n).hold = true → recordByte e 4 = 0 →
      let cleared := { s.head n with hold := false }
      let released := { cleared with
        timer := if (s.head n).expired then (s.head n).timer
          else if (s.head n).limit = 0 then none else some ((s.head n).limit * 1000) }
      let granted : IndexEntry → Disposition → Prop := fun h d => h.forward = .pending ∧ (s.port d.destination).state = .run
        ∧ (s.outbound d.destination).transmission = .none ∧ ∀ w, w ≠ .store n → present d.destination s w = false
      let waits : IndexEntry → Disposition → Prop := fun h d => h.forward ≠ .pending ∨ (s.port d.destination).state ≠ .run
        ∨ (s.outbound d.destination).transmission ≠ .none
      let sent : Disposition → IndexEntry → State → Prop := fun d h u => otherOutbounds d.destination s u
        ∧ (u.outbound d.destination).transmission = .forward n h.sequence d.strip
        ∧ (u.outbound d.destination).lastWinner = .store n
      ((s.store n).index = [] ∨ (∃ h rest, (s.store n).index = h :: rest ∧ h.state = .arriving ∧ h.disposition = none) →
        ∃ u, exec .linkHold s = .next (endCommand .ok [1] u) ∧ frame [.heads] s u ∧ otherHeads n s u ∧ u.head n = cleared)
      ∧ ∀ h rest d, (s.store n).index = h :: rest → h.state = .complete → h.disposition = some d →
        (h.delivery ≠ .pending → h.delivery = .active ∨ h.forward = .active ∨ h.forward = .pending → waits h d →
          ∃ u, exec .linkHold s = .next (endCommand .ok [1] u) ∧ frame [.heads] s u ∧ otherHeads n s u ∧ u.head n = released)
        ∧ (h.delivery ≠ .pending → granted h d →
          ∃ u, exec .linkHold s = .next (endCommand .ok [1] u) ∧ frame [.heads, .outbounds, .stores] s u ∧ otherHeads n s u
            ∧ u.head n = released ∧ sent d h u ∧ otherStores n s u
            ∧ u.store n = { s.store n with index := { h with forward := .active } :: rest })
        ∧ (h.delivery = .pending → (s.delivery n).state = .idle → (s.head n).expired = false →
          (s.slot (.completion n)).waiting.length < freeSlots (.completion n) s → 1 ≤ leftBytes h d →
          (s.ring (.fill n)).count = 0 → granted h d ∨ waits h d →
          ∃ u, exec .linkHold s = .next (endCommand .ok [1] u) ∧ frame [.heads, .deliveries, .slots, .stores, .outbounds] s u
            ∧ otherHeads n s u ∧ otherDeliveries n s u ∧ otherSlots (.completion n) s u ∧ otherStores n s u
            ∧ u.head n = released
            ∧ u.delivery n = startedDelivery .recordWait (leftBytes h d) (s.delivery n)
            ∧ u.slot (.completion n)
                = { s.slot (.completion n) with reserved := (s.slot (.completion n)).reserved + 1 }
            ∧ (granted h d → sent d h u
              ∧ u.store n = { s.store n with index := { h with delivery := .active, forward := .active } :: rest })
            ∧ (waits h d → u.outbounds = s.outbounds
              ∧ u.store n = { s.store n with index := { h with delivery := .active } :: rest }))
        ∧ (h.delivery = .pending → (s.delivery n).state = .idle → freeSlots (.completion n) s = 0 → waits h d →
          ∃ u, exec .linkHold s = .next (endCommand .ok [1] u) ∧ frame [.heads, .deliveries, .slots] s u
            ∧ otherHeads n s u ∧ otherDeliveries n s u ∧ otherSlots (.completion n) s u ∧ u.head n = released
            ∧ u.delivery n = { s.delivery n with state := .slotWait, leg := true }
            ∧ u.slot (.completion n)
                = { s.slot (.completion n) with waiting := (s.slot (.completion n)).waiting ++ [.delivery] }))

/-- SEND_CANCEL as it is taken (R189, R138, R139), with no cancel in progress: with no chain and no record it ends at once with
0 and 0; with a held chain and no record before the limit index that chain's SENT entry is written, CANCELLED and counted if it
was VALID, BAD_CHAIN if it was INVALID; with a chain under assembly and no record before the limit that trailing chain is
completed CANCELLED with a slot free, and waits for one with none: the model's reading of step 4 of R139 against its sentence,
and R189's, that such a cancel ends at once (log entry 33); with a held chain and records before the limit index (R139, step 1)
that chain's SENT entry is written in its reserved slot, CANCELLED and counted, or BAD_CHAIN, the next record is read and the
command waits; with no held chain and records posted the limit index is recorded, the next record is read, and the command
waits; in FETCH and in SLOT_WAIT the limit index alone is recorded. How the cancel goes on from there is a statement of its own.
-/
def Obligations.SendCancelCompletesTheChains : Prop :=
  ∀ (n : LineId) (e : Record) (index : BitVec 16) (s : State), executing .sendCancel n e index s →
    (s.outbound n).cancel = none →
    ((s.outbound n).fetch = .waitRecord → (s.outbound n).held = none → (s.outbound n).assembly = [] →
      (s.ring (.send n)).count = 0 →
      ∃ u, exec .sendCancel s = .next (endCommand .ok [0, 0, 0, 0, 0, 0, 0, 0] u) ∧ frame [.command] s u
        ∧ u.command = { s.command with wait := .cancel n })
    ∧ (∀ c, (s.outbound n).held = some c → (s.outbound n).assembly = [] → (s.ring (.send n)).count = 0 →
      ∃ u, exec .sendCancel s
          = .next (endCommand .ok
              (if c.verdict = .invalid then [0, 0, 0, 0, 0, 0, 0, 0]
               else le32 1 ++ le32 (BitVec.ofNat 32 c.records.length)) u)
        ∧ frame [.command, .outbounds, .rings, .slots, .bus] s u ∧ otherOutbounds n s u
        ∧ otherRings (.completion n) s u ∧ otherSlots (.completion n) s u
        ∧ u.outbound n = { s.outbound n with fetch := .waitRecord, held := none, waiting := none }
        ∧ (u.slot (.completion n)).reserved = (s.slot (.completion n)).reserved - 1
        ∧ ∃ rest, u.bus = s.bus ++ .entry ((s.ring (.completion n)).slotAddress (s.ring (.completion n)).producer)
            (recordOf (sentBytes
              ⟨n, (c.records.head?.map (·.index)).getD 0, c.records.length, (c.records.getLast?.map (·.cookie)).getD 0, 0,
                if c.verdict = .invalid then .badChain else .cancelled, none⟩)) :: rest)
    ∧ ((s.outbound n).fetch = .waitRecord → (s.outbound n).held = none → (s.outbound n).assembly ≠ [] →
      (s.ring (.send n)).count = 0 → (s.slot (.completion n)).waiting.length < freeSlots (.completion n) s →
      ∃ u, exec .sendCancel s
          = .next (endCommand .ok (le32 1 ++ le32 (BitVec.ofNat 32 (s.outbound n).assembly.length)) u)
        ∧ frame [.command, .outbounds, .rings, .slots, .bus] s u ∧ otherOutbounds n s u
        ∧ otherRings (.completion n) s u ∧ otherSlots (.completion n) s u
        ∧ u.outbound n = { s.outbound n with assembly := [], waiting := none }
        ∧ (u.slot (.completion n)).reserved = (s.slot (.completion n)).reserved
        ∧ ∃ rest, u.bus = s.bus ++ .entry ((s.ring (.completion n)).slotAddress (s.ring (.completion n)).producer)
            (recordOf (sentBytes
              ⟨n, ((s.outbound n).assembly.head?.map (·.index)).getD 0, (s.outbound n).assembly.length,
                ((s.outbound n).assembly.getLast?.map (·.cookie)).getD 0, 0, .cancelled, none⟩)) :: rest)
    ∧ ((s.outbound n).fetch = .waitRecord → (s.outbound n).held = none → (s.outbound n).assembly ≠ [] →
      (s.ring (.send n)).count = 0 → freeSlots (.completion n) s = 0 →
      ∃ t, exec .sendCancel s = .next t ∧ frame [.command, .outbounds, .slots] s t ∧ otherOutbounds n s t
        ∧ otherSlots (.completion n) s t ∧ t.command = { s.command with wait := .cancel n }
        ∧ t.outbound n = { s.outbound n with
            fetch := .slotWait, assembly := [], waiting := some ⟨(s.outbound n).assembly, .cancelled⟩,
            cancel := some ⟨(s.ring (.send n)).producer, 0, 0⟩ }
        ∧ t.slot (.completion n)
            = { s.slot (.completion n) with waiting := (s.slot (.completion n)).waiting ++ [.outbound] })
    ∧ (∀ c, (s.outbound n).held = some c → 1 ≤ (s.ring (.send n)).count →
      ∃ t more, exec .sendCancel s = .next t ∧ frame [.command, .outbounds, .rings, .slots, .bus] s t
        ∧ otherOutbounds n s t ∧ otherRings (.completion n) s t ∧ otherSlots (.completion n) s t
        ∧ t.command = { s.command with wait := .cancel n }
        ∧ t.outbound n = { s.outbound n with
            fetch := .fetch, held := none, waiting := none,
            cancel := some (if c.verdict = .invalid then ⟨(s.ring (.send n)).producer, 0, 0⟩
              else ⟨(s.ring (.send n)).producer, 1, BitVec.ofNat 32 c.records.length⟩) }
        ∧ t.ring (.completion n) = { s.ring (.completion n) with producer := (s.ring (.completion n)).producer + 1 }
        ∧ t.slot (.completion n) = { s.slot (.completion n) with
            reserved := (s.slot (.completion n)).reserved - 1, armed := false }
        ∧ t.bus = s.bus ++ .entry ((s.ring (.completion n)).slotAddress (s.ring (.completion n)).producer)
            (recordOf (sentBytes
              ⟨n, (c.records.head?.map (·.index)).getD 0, c.records.length, (c.records.getLast?.map (·.cookie)).getD 0, 0,
                if c.verdict = .invalid then .badChain else .cancelled, none⟩)) :: more
        ∧ more.getLast? = some (.read ((s.ring (.send n)).slotAddress (s.ring (.send n)).consumer) 32))
    ∧ ((s.outbound n).fetch = .waitRecord → (s.outbound n).held = none → 1 ≤ (s.ring (.send n)).count →
      ∃ t, exec .sendCancel s = .next t ∧ frame [.command, .outbounds, .bus] s t ∧ otherOutbounds n s t
        ∧ t.command = { s.command with wait := .cancel n }
        ∧ t.outbound n = { s.outbound n with fetch := .fetch, cancel := some ⟨(s.ring (.send n)).producer, 0, 0⟩ }
        ∧ t.bus = s.bus ++ [.read ((s.ring (.send n)).slotAddress (s.ring (.send n)).consumer) 32])
    ∧ ((s.outbound n).fetch = .fetch ∨ (s.outbound n).fetch = .slotWait → (s.outbound n).held = none →
      ∃ t, exec .sendCancel s = .next t ∧ frame [.command, .outbounds] s t ∧ otherOutbounds n s t
        ∧ t.command = { s.command with wait := .cancel n }
        ∧ t.outbound n = { s.outbound n with cancel := some ⟨(s.ring (.send n)).producer, 0, 0⟩ })

/-- A cancel in progress (R139, steps 1 to 4). SEND_RECORD_READ_DONE: the record is taken, with a progress write of its own (log
entry 23), and joins the chain. Short of the limit index, a chain that goes on reads its next record; one made whole is
completed CANCELLED with a slot free, counted, and the next record is read. At the limit the chain, whole or not, is completed
in the same way and the command ends with the counts. With no slot free the chain, whole or trailing at the limit, waits.
SLOT_GRANTED: the chain that waits is completed in its slot, CANCELLED, or BAD_CHAIN if it had been judged INVALID, and the
cancel goes on or is done. -/
def Obligations.CancelsGoOnToTheirLimit : Prop :=
  (∀ (n : LineId) (r : Record) (k : Cancel) (s : State), s.part.state = .running → (s.outbound n).fetch = .fetch →
    (s.outbound n).cancel = some k →
    let g := s.ring (.send n)
    let f : SendRecord := ⟨g.consumer, recordU64 r 0, recordU16 r 8, r.getLsbD 80, r.getLsbD 81, recordU32 r 12⟩
    let chain := (s.outbound n).assembly ++ [f]
    let whole := f.continues = false ∨ (s.outbound n).assembly.length = 15
    let counted : Cancel := ⟨k.limit, k.chains + 1, k.records + BitVec.ofNat 32 chain.length⟩
    let taken : HostOp := .progressIndex (s.part.progress + BitVec.ofNat 64 (2 * (2 + lineNumber n))) (g.consumer + 1)
    let sent : HostOp := .entry ((s.ring (.completion n)).slotAddress (s.ring (.completion n)).producer)
      (recordOf (sentBytes
        ⟨n, (chain.head?.map (·.index)).getD 0, chain.length, f.cookie, 0, .cancelled, none⟩))
    (f.continues = true → (s.outbound n).assembly.length < 15 → g.consumer + 1 ≠ k.limit → 2 ≤ g.count →
      ∃ t, exec (.sendRecordReadDone n (some r)) s = .next t ∧ frame [.rings, .outbounds, .bus] s t
        ∧ otherRings (.send n) s t ∧ otherOutbounds n s t ∧ t.ring (.send n) = { g with consumer := g.consumer + 1 }
        ∧ t.outbound n = { s.outbound n with assembly := chain }
        ∧ t.bus = s.bus ++ [taken, .read (g.slotAddress (g.consumer + 1)) 32])
    ∧ (whole → g.consumer + 1 ≠ k.limit → 2 ≤ g.count →
      (s.slot (.completion n)).waiting.length < freeSlots (.completion n) s →
      ∃ t more, exec (.sendRecordReadDone n (some r)) s = .next t ∧ frame [.rings, .slots, .outbounds, .bus] s t
        ∧ otherSlots (.completion n) s t ∧ otherOutbounds n s t ∧ t.ring (.send n) = { g with consumer := g.consumer + 1 }
        ∧ (∀ q, q ≠ .send n → q ≠ .completion n → t.ring q = s.ring q)
        ∧ t.ring (.completion n) = { s.ring (.completion n) with producer := (s.ring (.completion n)).producer + 1 }
        ∧ t.slot (.completion n) = { s.slot (.completion n) with armed := false }
        ∧ t.outbound n = { s.outbound n with assembly := [], waiting := none, held := none, cancel := some counted }
        ∧ t.bus = s.bus ++ taken :: sent :: more
        ∧ more.getLast? = some (.read (g.slotAddress (g.consumer + 1)) 32))
    ∧ (whole ∨ g.consumer + 1 = k.limit → freeSlots (.completion n) s = 0 →
      ∃ t, exec (.sendRecordReadDone n (some r)) s = .next t ∧ frame [.rings, .slots, .outbounds, .bus] s t
        ∧ otherRings (.send n) s t ∧ otherSlots (.completion n) s t ∧ otherOutbounds n s t
        ∧ t.ring (.send n) = { g with consumer := g.consumer + 1 }
        ∧ t.slot (.completion n)
            = { s.slot (.completion n) with waiting := (s.slot (.completion n)).waiting ++ [.outbound] }
        ∧ t.outbound n = { s.outbound n with fetch := .slotWait, assembly := [], waiting := some ⟨chain, .cancelled⟩ }
        ∧ t.bus = s.bus ++ [taken])
    ∧ (g.consumer + 1 = k.limit → (s.slot (.completion n)).waiting.length < freeSlots (.completion n) s →
      ∃ u more, exec (.sendRecordReadDone n (some r)) s
          = .next (fetchSend n (endCommand .ok (le32 counted.chains ++ le32 counted.records) u))
        ∧ frame [.rings, .slots, .outbounds, .bus] s u ∧ otherSlots (.completion n) s u ∧ otherOutbounds n s u
        ∧ u.ring (.send n) = { g with consumer := g.consumer + 1 }
        ∧ (∀ q, q ≠ .send n → q ≠ .completion n → u.ring q = s.ring q)
        ∧ u.ring (.completion n) = { s.ring (.completion n) with producer := (s.ring (.completion n)).producer + 1 }
        ∧ u.slot (.completion n) = { s.slot (.completion n) with armed := false }
        ∧ u.outbound n = { s.outbound n with
            fetch := .waitRecord, assembly := [], waiting := none, held := none, cancel := none }
        ∧ u.bus = s.bus ++ taken :: sent :: more))
  ∧ ∀ (n : LineId) (c : Chain) (k : Cancel) (rest : List Requester) (s : State), s.part.state = .running →
    (s.slot (.completion n)).waiting = .outbound :: rest → 1 ≤ freeSlots (.completion n) s →
    (s.outbound n).waiting = some c → (s.outbound n).cancel = some k → (s.outbound n).assembly = [] →
    let counted : Cancel :=
      if c.verdict = .invalid then k else ⟨k.limit, k.chains + 1, k.records + BitVec.ofNat 32 c.records.length⟩
    ∃ u more, frame [.rings, .slots, .outbounds, .bus] s u ∧ otherRings (.completion n) s u
      ∧ otherSlots (.completion n) s u ∧ otherOutbounds n s u
      ∧ u.ring (.completion n) = { s.ring (.completion n) with producer := (s.ring (.completion n)).producer + 1 }
      ∧ u.slot (.completion n) = { s.slot (.completion n) with waiting := rest, armed := false }
      ∧ u.bus = s.bus ++ .entry ((s.ring (.completion n)).slotAddress (s.ring (.completion n)).producer)
          (recordOf (sentBytes
            ⟨n, (c.records.head?.map (·.index)).getD 0, c.records.length, (c.records.getLast?.map (·.cookie)).getD 0, 0,
              if c.verdict = .invalid then .badChain else .cancelled, none⟩)) :: more
      ∧ ((s.ring (.send n)).consumer = k.limit ∨ (s.ring (.send n)).count = 0 →
        u.outbound n = { s.outbound n with fetch := .waitRecord, waiting := none, held := none, cancel := none }
          ∧ exec (.slotGranted (.completion n)) s
            = .next (fetchSend n (endCommand .ok (le32 counted.chains ++ le32 counted.records) u)))
      ∧ ((s.ring (.send n)).consumer ≠ k.limit → 1 ≤ (s.ring (.send n)).count →
        u.outbound n = { s.outbound n with fetch := .fetch, waiting := none, held := none, cancel := some counted }
          ∧ exec (.slotGranted (.completion n)) s
            = .next (issue (.read ((s.ring (.send n)).slotAddress (s.ring (.send n)).consumer) 32) u))

/-- TABLE_WRITE and TABLE_READ (R190, R191, R70, R71). TABLE_WRITE: the entries from the first number on take the values of the
entry, bits 4..0 (R196), every other entry of the table and every other state stays as it is, and the command ends OK.
TABLE_READ: one byte for each entry of the range in order, and nothing changes. The codes of an entry (10.5) are given by value:
the action in bits 1..0, the destination in bits 3..2, strip in bit 4. -/
def Obligations.TheTableIsWrittenAndReadInRanges : Prop :=
  (∀ (n : LineId) (e : Record) (index : BitVec 16) (s : State), executing .tableWrite n e index s →
      ∃ u, exec .tableWrite s = .next (endCommand .ok [] u) ∧ frame [.heads] s u ∧ otherHeads n s u
        ∧ u.head n = { s.head n with table := (u.head n).table }
        ∧ ∀ k, k ≤ 256 →
          tableEntryByte (tableEntry (u.head n) k) =
            if (recordU16 e 4).toNat ≤ k ∧ k < (recordU16 e 4).toNat + (recordByte e 6).toNat
            then recordByte e (8 + (k - (recordU16 e 4).toNat)) &&& 0x1F else tableEntryByte (tableEntry (s.head n) k))
  ∧ (∀ (n : LineId) (e : Record) (index : BitVec 16) (s : State), executing .tableRead n e index s →
    ∃ result, exec .tableRead s = .next (endCommand .ok result s) ∧ result.length = (recordByte e 6).toNat
      ∧ ∀ k, k < (recordByte e 6).toNat →
        result[k]? = some (tableEntryByte (tableEntry (s.head n) ((recordU16 e 4).toNat + k))))
  ∧ ∀ (action : Action) (code : BitVec 2) (d : LineId) (strip : Bool),
    (action, code) ∈ [(Action.deliver, 0), (.forward, 1), (.copy, 2), (.discard, 3)] →
    (tableEntryByte ⟨action, d, strip⟩).extractLsb' 0 2 = code
      ∧ ((tableEntryByte ⟨action, d, strip⟩).extractLsb' 2 2).toNat = lineNumber d
      ∧ (tableEntryByte ⟨action, d, strip⟩).getLsbD 4 = strip ∧ (tableEntryByte ⟨action, d, strip⟩).extractLsb' 5 3 = 0

/-- TIME_SET (R192, R151): the time unit holds the values of the entry, the fine counter and the skew count are 0, and the
period timer runs at the full period under INTERNAL alone; the result gives the values before. The source codes (10.4) are given
by value. -/
def Obligations.TimeSetSetsTheTimeBase : Prop :=
  [TimeSource.none, .internal, .line .l0, .line .l1, .line .l2, .line .l3].map timeSourceCode = [0, 1, 4, 5, 6, 7]
  ∧ ∀ (e : Record) (index : BitVec 16) (s : State), s.part.state = .running → s.command.state = .execute →
    s.command.wait = .none → s.command.current = some ⟨index, e⟩ → commandKind (opcode e) = some .timeSet →
    checkCommand e s = none →
    ∃ u, exec .timeSet s
        = .next (endCommand .ok
            ([s.time.epoch, timeSourceCode s.time.source, 0, 0] ++ le32 (s.time.fine.setWidth 32) ++ le32 s.time.skew) u)
      ∧ frame [.time] s u ∧ u.time.epoch = recordByte e 4 ∧ u.time.fine = 0
      ∧ timeSourceCode u.time.source = recordByte e 5
      ∧ u.time.period = (recordU16 e 6).toNat ∧ u.time.notices = decide (recordByte e 8 = 1) ∧ u.time.skew = 0
      ∧ u.time.timer = if recordByte e 5 = 1 then some ((recordU16 e 6).toNat * 1000) else none

/-- QUERY_LINK (R193): the result gives the figures of the section in the layout of 10.6; with the clear flag the counts of that
section, and nothing else, are 0 afterwards. That the figures are of one moment is the model's choice (log entry 21). Flags are
reported as 0 and 1. -/
def Obligations.QueryLinkReportsAndClears : Prop :=
  flagByte true = 1 ∧ flagByte false = 0
  ∧ ∀ (n : LineId) (e : Record) (index : BitVec 16) (s : State), executing .queryLink n e index s →
    (recordByte e 4 = 0 →
      ∃ u, exec .queryLink s
          = .next (endCommand .ok
              ([lineStateCode (s.port n).state, flagByte (s.port n).configured, flagByte (s.head n).hold,
                lineCauseCode (s.port n).lastCause]
                ++ le16 (BitVec.ofNat 16 (s.credit n).outstanding) ++ le16 (BitVec.ofNat 16 (s.credit n).allowance)
                ++ le32 (BitVec.ofNat 32 (s.store n).occupied) ++ le16 (BitVec.ofNat 16 (s.store n).index.length) ++ [0, 0]
                ++ le32 (s.port n).errors) u)
        ∧ frame [.ports] s u ∧ otherPorts n s u
        ∧ u.port n = { s.port n with errors := if recordByte e 5 = 1 then 0 else (s.port n).errors })
    ∧ (recordByte e 4 = 1 →
      ∃ u, exec .queryLink s
          = .next (endCommand .ok
              (le32 (s.store n).received ++ le32 (s.store n).truncated ++ le32 (s.store n).abandoned
                ++ le32 (s.store n).dropped ++ le32 (s.head n).discardedCount ++ le32 (s.head n).expiredCount) u)
        ∧ frame [.stores, .heads] s u ∧ otherStores n s u ∧ otherHeads n s u
        ∧ (recordByte e 5 = 0 → u.stores = s.stores ∧ u.heads = s.heads)
        ∧ (recordByte e 5 = 1 →
          u.store n = { s.store n with received := 0, truncated := 0, abandoned := 0, dropped := 0 }
            ∧ u.head n = { s.head n with discardedCount := 0, expiredCount := 0 }))

/-! ## The line ports -/

/-- CHARACTER_ALIGN in LISTEN (R10, R11): a HELLO or READY takes the line to CONNECT with both timers started and LINK_STATE
(CONNECT, NONE) posted; bits that are neither have no effect. What is received in CONNECT (R12, R15): READY, or GRANT(k) with
its 16k characters of allowance, takes the line to RUN with READY due and credit from 0, and the arbiter grants a requester that
is present (R123); NULL, HELLO, END, ABANDON, a data character and MARK restart the silence timer and reach no other block. -/
def Obligations.ConnectCharactersAreTakenAsR12Says : Prop :=
  (∀ (n : LineId) (c : Character) (s : State), s.part.state = .running → (s.port n).state = .listen →
    (c = symbolCharacter .hello ∨ c = symbolCharacter .ready →
      ∃ t, exec (.characterAlign n c) s = .next t ∧ frame (.ports :: noticeBlocks) s t ∧ otherPorts n s t
        ∧ noticed [.linkState n .connect .none] s t
        ∧ t.port n = { s.port n with state := .connect, aligned := true, handshake := some 2000, silence := some 20 })
    ∧ (c ≠ symbolCharacter .hello → c ≠ symbolCharacter .ready → exec (.characterAlign n c) s = .next s))
  ∧ ∀ (n : LineId) (s : State), s.part.state = .running → (s.port n).state = .connect →
    ((s.port n).markPending = false →
      ∀ (x : Symbol) (allowance : Nat),
        (x = .ready ∧ allowance = 0) ∨ (∃ k, 1 ≤ k ∧ k ≤ 8 ∧ x = .grant k ∧ allowance = 16 * k) →
        ∃ u, exec (.rxConnectChar n (symbolCharacter x)) s = .next (arbitrate n u)
          ∧ frame (.ports :: .credits :: noticeBlocks) s u ∧ otherPorts n s u ∧ otherCredits n s u
          ∧ noticed [.linkState n .run .none] s u
          ∧ u.port n = { s.port n with state := .run, readyDue := true, handshake := none, silence := some 20 }
          ∧ u.credit n = ⟨0, allowance, offerOf (creditBound (s.store n))⟩)
    ∧ (∀ x ∈ [Symbol.null, .hello, .close, .abandon, .mark], (s.port n).markPending = false →
      ∃ t, exec (.rxConnectChar n (symbolCharacter x)) s = .next t ∧ frame [.ports] s t ∧ otherPorts n s t
        ∧ t.port n = { s.port n with silence := some 20, markPending := decide (x = .mark) })
    ∧ (∀ v, ∃ t, exec (.rxConnectChar n (dataCharacter v)) s = .next t ∧ frame [.ports] s t ∧ otherPorts n s t
        ∧ t.port n = { s.port n with silence := some 20, markPending := false })

/-- What is received in RUN and is no packet character (R16, R35, R144): NULL and READY restart the silence timer alone, MARK
sets MARK_PENDING, a GRANT(k) that stays within 1024 raises allowance by 16k, and a mark value from a line that is not the
source is discarded. -/
def Obligations.RunCharactersAreSortedAsR16Says : Prop :=
  ∀ (n : LineId) (s : State), s.part.state = .running → (s.port n).state = .run →
    (∀ x ∈ [Symbol.null, .ready, .mark], (s.port n).markPending = false →
      ∃ t, exec (.rxRunChar n (symbolCharacter x)) s = .next t ∧ frame [.ports] s t ∧ otherPorts n s t
        ∧ t.port n = { s.port n with silence := some 20, markPending := decide (x = .mark) })
    ∧ (∀ k, (s.port n).markPending = false → 1 ≤ k → k ≤ 8 → (s.credit n).allowance + 16 * k ≤ 1024 →
      ∃ t, exec (.rxRunChar n (symbolCharacter (.grant k))) s = .next t ∧ frame [.ports, .credits] s t ∧ otherPorts n s t
        ∧ otherCredits n s t ∧ t.port n = { s.port n with silence := some 20 }
        ∧ t.credit n = { s.credit n with allowance := (s.credit n).allowance + 16 * k })
    ∧ (∀ v, (s.port n).markPending = true → s.time.source ≠ .line n →
      ∃ t, exec (.rxRunChar n (dataCharacter v)) s = .next t ∧ frame [.ports] s t ∧ otherPorts n s t
        ∧ t.port n = { s.port n with silence := some 20, markPending := false })

/-- A data byte accepted in RUN (R28, R49 to R51, R56): outstanding falls by 1 and the offer is worked out again; the byte opens
a packet in BETWEEN, joins the OPEN one in FILLING, is counted as truncated at the maximum length, and is consumed in SHEDDING.
Every other byte of the memory is as before. The room credit may promise (R31, R32), the offer for a room (R30) and the address
of a byte in its region (R43) are given by value. -/
def Obligations.AcceptedBytesGoToTheStore : Prop :=
  (∀ (st : Store) (k : Nat),
      creditBound st = (if st.policy = .lossless then min 1024 (min (st.size - st.occupied) (2048 - st.index.length)) else 1024)
        ∧ offerOf k = (if k < 16 then none else some (min 8 (k / 16)))
        ∧ st.address k = (st.base + k % st.size) % 1073741824)
  ∧ ∀ (n : LineId) (v : Byte) (s : State), s.part.state = .running → (s.port n).state = .run →
    (s.port n).markPending = false → 1 ≤ (s.credit n).outstanding → s.ddr.wf = true →
    ∃ t, exec (.rxRunChar n (dataCharacter v)) s = .next t ∧ otherPorts n s t ∧ otherCredits n s t ∧ otherStores n s t
      ∧ t.port n = { s.port n with silence := some 20 }
      ∧ t.credit n = { s.credit n with
          outstanding := (s.credit n).outstanding - 1,
          offer := offerOf (creditBound (t.store n) - ((s.credit n).outstanding - 1)) }
      ∧ (∀ front e, (s.store n).intake = .filling → (s.store n).index = front ++ [e] → e.stored < (s.store n).maxLength →
        (s.store n).occupied < (s.store n).size →
        frame [.ports, .credits, .stores, .memory] s t
          ∧ t.store n = { s.store n with
              index := front ++ [{ e with
                stored := e.stored + 1, received := if e.received < 65535 then e.received + 1 else e.received }],
              writeOffset := ((s.store n).writeOffset + 1) % (s.store n).size, occupied := (s.store n).occupied + 1 }
          ∧ ∀ a, cellRead t.ddr.cells a
                = (if a = (s.store n).address (s.store n).writeOffset then v else cellRead s.ddr.cells a)
              ∧ t.ddr.bad a = s.ddr.bad a)
      ∧ (∀ front e, (s.store n).intake = .filling → (s.store n).index = front ++ [e] → (s.store n).maxLength ≤ e.stored →
        frame [.ports, .credits, .stores] s t
          ∧ t.store n = { s.store n with
              index := front ++ [{ e with
                truncated := true, received := if e.received < 65535 then e.received + 1 else e.received }] })
      ∧ ((s.store n).intake = .between → (s.store n).index.length < 2048 → 0 < (s.store n).maxLength →
        (s.store n).occupied < (s.store n).size →
        frame [.ports, .credits, .stores, .memory] s t
          ∧ t.store n = { s.store n with
              index := (s.store n).index ++ [⟨(s.store n).sequence, .arriving, (s.store n).writeOffset, 1, 1, some v, false,
                none, ⟨s.time.epoch, s.time.fine⟩, none, .absent, .absent⟩],
              sequence := (s.store n).sequence + 1, intake := .filling,
              writeOffset := ((s.store n).writeOffset + 1) % (s.store n).size, occupied := (s.store n).occupied + 1 }
          ∧ ∀ a, cellRead t.ddr.cells a
                = (if a = (s.store n).address (s.store n).writeOffset then v else cellRead s.ddr.cells a)
              ∧ t.ddr.bad a = s.ddr.bad a)
      ∧ ((s.store n).intake = .shedding → frame [.ports, .credits] s t)

/-- Under DROP_NEW (R54, R55, R57): a data byte that meets a full index skips its packet, and one that meets a full store cuts
the OPEN packet; a first byte that finds an entry free and the store full is allocated and cut at once, its number spent (R49,
R55); each is counted, noticed with its reason, and shed; the memory is as before; outstanding falls by 1 and the offer is
worked out again (R28, R33). An END or ABANDON that meets a full index is a whole packet skipped: counted and noticed, and the
store stays between packets. -/
def Obligations.DropNewSkipsAndCuts : Prop :=
  ∀ (n : LineId) (v : Byte) (s : State), s.part.state = .running → (s.port n).state = .run →
    (s.port n).markPending = false → 1 ≤ (s.credit n).outstanding → (s.store n).policy = .dropNew →
    ((s.store n).intake = .between → (s.store n).index.length = 2048 →
      ∃ t, exec (.rxRunChar n (dataCharacter v)) s = .next t ∧ frame (.ports :: .credits :: .stores :: noticeBlocks) s t
        ∧ otherStores n s t ∧ otherCredits n s t
        ∧ t.credit n = reckoned n { s.credit n with outstanding := (s.credit n).outstanding - 1 } t
        ∧ noticed [.dropped n none ((s.store n).dropped + 1)] s t
        ∧ t.store n = { s.store n with dropped := (s.store n).dropped + 1, intake := .shedding })
    ∧ (∀ front e, (s.store n).intake = .filling → (s.store n).index = front ++ [e] → e.stored < (s.store n).maxLength →
      (s.store n).occupied = (s.store n).size →
      ∃ t, exec (.rxRunChar n (dataCharacter v)) s = .next t ∧ frame (.ports :: .credits :: .stores :: noticeBlocks) s t
        ∧ otherStores n s t ∧ otherCredits n s t
        ∧ t.credit n = reckoned n { s.credit n with outstanding := (s.credit n).outstanding - 1 } t
        ∧ noticed [.dropped n (some e.sequence) ((s.store n).dropped + 1)] s t
        ∧ t.store n = { s.store n with
            index := front, occupied := (s.store n).occupied - e.stored, writeOffset := e.offset, intake := .shedding,
            dropped := (s.store n).dropped + 1 })
    ∧ ((s.store n).intake = .between → (s.store n).index.length < 2048 → 0 < (s.store n).maxLength →
      (s.store n).occupied = (s.store n).size →
      ∃ t, exec (.rxRunChar n (dataCharacter v)) s = .next t ∧ frame (.ports :: .credits :: .stores :: noticeBlocks) s t
        ∧ otherStores n s t ∧ otherCredits n s t
        ∧ t.credit n = reckoned n { s.credit n with outstanding := (s.credit n).outstanding - 1 } t
        ∧ noticed [.dropped n (some (s.store n).sequence) ((s.store n).dropped + 1)] s t
        ∧ t.store n = { s.store n with
            sequence := (s.store n).sequence + 1, intake := .shedding, dropped := (s.store n).dropped + 1 })
    ∧ ((s.store n).intake = .between → (s.store n).index.length = 2048 → ∀ x ∈ [Symbol.close, .abandon],
      ∃ t, exec (.rxRunChar n (symbolCharacter x)) s = .next t ∧ frame (.ports :: .credits :: .stores :: noticeBlocks) s t
        ∧ otherStores n s t ∧ otherCredits n s t
        ∧ t.credit n = reckoned n { s.credit n with outstanding := (s.credit n).outstanding - 1 } t
        ∧ noticed [.dropped n none ((s.store n).dropped + 1)] s t
        ∧ t.store n = { s.store n with dropped := (s.store n).dropped + 1 })

/-- An END or ABANDON accepted in RUN lowers outstanding, the offer is worked out again from the store as it then stands (R28,
R33, R58), and no byte changes. In FILLING, behind another packet, the OPEN entry is COMPLETE with that end kind and the counts
rise (R52, R63), whatever the head waits for: a delivery, its arbiter, or hold. In BETWEEN, behind another packet and with an
entry free, it is a whole packet of 0 bytes, with no tag, a number and a stamp of its own (R52). In SHEDDING it ends the dropped
packet (R56). The one that closes as the head is in the next two statements. -/
def Obligations.PacketsCloseWithTheirEndKind : Prop :=
  ∀ (n : LineId) (abandon : Bool) (s : State), s.part.state = .running →
    (s.port n).state = .run → (s.port n).markPending = false → 1 ≤ (s.credit n).outstanding →
    ∃ t, exec (.rxRunChar n (symbolCharacter (if abandon then .abandon else .close))) s = .next t
      ∧ otherPorts n s t ∧ t.port n = { s.port n with silence := some 20 } ∧ sameMemory s t ∧ otherCredits n s t
      ∧ t.credit n = reckoned n { s.credit n with outstanding := (s.credit n).outstanding - 1 } t
      ∧ (∀ front e, (s.store n).intake = .filling → (s.store n).index = front ++ [e] → front ≠ [] → headSettled n s →
        frame [.ports, .credits, .stores] s t ∧ otherStores n s t
          ∧ t.store n = closedStore e abandon
              (front ++ [{ e with state := .complete, endKind := some (if abandon then .abandon else .good) }]) (s.store n))
      ∧ ((s.store n).intake = .between → (s.store n).index.length < 2048 → (s.store n).index ≠ [] → headSettled n s →
        frame [.ports, .credits, .stores] s t ∧ otherStores n s t
          ∧ t.store n = { s.store n with
              index := (s.store n).index ++ [⟨(s.store n).sequence, .complete, (s.store n).writeOffset, 0, 0, none, false,
                some (if abandon then .abandon else .good), ⟨s.time.epoch, s.time.fine⟩, none, .absent, .absent⟩],
              sequence := (s.store n).sequence + 1, received := (s.store n).received + 1,
              abandoned := (s.store n).abandoned + (if abandon then 1 else 0) })
      ∧ ((s.store n).intake = .shedding →
        frame [.ports, .credits, .stores] s t ∧ otherStores n s t ∧ t.store n = { s.store n with intake := .between })

/-- A packet that an END or an ABANDON closes as the head is decided at once (R74 to R76, R85): the OPEN one alone in the index,
or the packet of 0 bytes that it makes between packets in an empty index, which has no tag and takes UNTAGGED (R52, R69). The
table entry decides it, but under DROP a bad one, truncated or closed with ABANDON, is discarded whatever the table says (R72).
FORWARD under hold, toward a line out of RUN or toward one with a packet in transmission leaves its leg PENDING; toward a line
in RUN with its transmitter free and no other requester it is granted at once (R79, R123). The head timer starts at the full
limit unless the limit is 0 or hold is on. DISCARD retires the head, counted discarded. The offer is worked out again from the
store as it then stands (R33, R58). A head that the loss of RUN closes is in `lostHead`. -/
def Obligations.ClosedHeadsAreDecided : Prop :=
  ∀ (n : LineId) (abandon : Bool) (e closed : IndexEntry) (d : Disposition) (timer : Option Nat) (s : State),
    s.part.state = .running → (s.port n).state = .run → (s.port n).markPending = false → 1 ≤ (s.credit n).outstanding →
    closesAsHead n e s → e.disposition = none → (s.head n).timer = none → (s.head n).expired = false →
    (s.head n).flush = none → d = tableEntry (s.head n) (match e.tag with | some t => t.toNat | none => 256) →
    closed = { e with
      state := .complete, endKind := some (if abandon then .abandon else .good), disposition := some d, delivery := .absent } →
    timer = (if (s.head n).hold ∨ (s.head n).limit = 0 then none else some ((s.head n).limit * 1000)) →
    let kept := (s.head n).badRule = .keep ∨ (abandon = false ∧ e.truncated = false)
    ∃ t, exec (.rxRunChar n (symbolCharacter (if abandon then .abandon else .close))) s = .next t
      ∧ otherPorts n s t ∧ t.port n = { s.port n with silence := some 20 } ∧ sameMemory s t ∧ otherCredits n s t
      ∧ t.credit n = reckoned n { s.credit n with outstanding := (s.credit n).outstanding - 1 } t
      ∧ (kept → d.action = .forward → (s.head n).hold = true ∨ (s.port d.destination).state ≠ .run
          ∨ (s.outbound d.destination).transmission ≠ .none →
        frame [.ports, .credits, .stores, .heads] s t ∧ otherStores n s t ∧ otherHeads n s t
          ∧ t.store n = closedStore e abandon [{ closed with forward := .pending }] (s.store n)
          ∧ t.head n = { s.head n with timer := timer })
      ∧ (kept → d.action = .forward → (s.head n).hold = false → (s.port d.destination).state = .run →
          (s.outbound d.destination).transmission = .none → (∀ w, w ≠ .store n → present d.destination s w = false) →
        frame [.ports, .credits, .stores, .heads, .outbounds] s t ∧ otherStores n s t ∧ otherHeads n s t
          ∧ t.store n = closedStore e abandon [{ closed with forward := .active }] (s.store n)
          ∧ t.head n = { s.head n with timer := timer } ∧ otherOutbounds d.destination s t
          ∧ (t.outbound d.destination).transmission = .forward n e.sequence d.strip
          ∧ (t.outbound d.destination).lastWinner = .store n)
      ∧ (d.action = .discard ∨ ((s.head n).badRule = .drop ∧ (abandon = true ∨ e.truncated = true)) →
        frame [.ports, .credits, .stores, .heads] s t ∧ otherStores n s t ∧ otherHeads n s t
          ∧ t.store n = { closedStore e abandon [] (s.store n) with
              occupied := (s.store n).occupied - e.stored,
              readOffset := ((s.store n).readOffset + e.stored) % (s.store n).size }
          ∧ t.head n = { s.head n with discardedCount := (s.head n).discardedCount + 1 })

/-- A packet that closes as the head, the packet of 0 bytes with no tag between packets among them (R52, R69), is decided
DELIVER or COPY under KEEP, or as a good one under DROP, and gets a delivery leg (R75), here with the delivery engine idle; the
forward leg of a COPY waits under hold, toward a line out of RUN or behind a packet in transmission, and is granted with no
other requester (R79, R123). Under hold the delivery stays PENDING (R83). With no slot free it waits in SLOT_WAIT (R97). With
its packet slot it is ACTIVE and needs a fill record: it stalls on an empty fill ring (R99), and reads a posted record with a
spare slot free (R100, R101). With nothing to deliver it is reported at once (R98, R106): DELIVER retires, and COPY stays for
its forward. The offer is worked out again from the store as it then stands (R33, R58). -/
def Obligations.DecidedHeadsAreDelivered : Prop :=
  ∀ (n : LineId) (abandon : Bool) (e closed : IndexEntry) (d : Disposition) (timer : Option Nat) (s : State),
    s.part.state = .running → (s.port n).state = .run → (s.port n).markPending = false → 1 ≤ (s.credit n).outstanding →
    closesAsHead n e s → e.disposition = none → (s.head n).timer = none → (s.head n).expired = false →
    (s.head n).flush = none → (s.head n).badRule = .keep ∨ (abandon = false ∧ e.truncated = false) →
    (s.delivery n).state = .idle → d = tableEntry (s.head n) (match e.tag with | some t => t.toNat | none => 256) →
    let waits := (s.head n).hold = true ∨ (s.port d.destination).state ≠ .run ∨ (s.outbound d.destination).transmission ≠ .none
    d.action = .deliver ∨ (d.action = .copy ∧ (waits ∨ ∀ w, w ≠ .store n → present d.destination s w = false)) →
    closed = { e with
      state := .complete, endKind := some (if abandon then .abandon else .good), disposition := some d,
      forward := if d.action = .deliver then .absent else if waits then .pending else .active } →
    timer = (if (s.head n).hold ∨ (s.head n).limit = 0 then none else some ((s.head n).limit * 1000)) →
    ∃ t, exec (.rxRunChar n (symbolCharacter (if abandon then .abandon else .close))) s = .next t
      ∧ frame [.ports, .credits, .stores, .heads, .deliveries, .outbounds, .rings, .slots, .bus] s t
      ∧ otherPorts n s t ∧ t.port n = { s.port n with silence := some 20 } ∧ otherHeads n s t ∧ otherStores n s t
      ∧ otherDeliveries n s t ∧ otherRings (.completion n) s t ∧ otherSlots (.completion n) s t ∧ otherCredits n s t
      ∧ t.credit n = reckoned n { s.credit n with outstanding := (s.credit n).outstanding - 1 } t
      ∧ (d.action = .deliver ∨ waits → t.outbounds = s.outbounds)
      ∧ (d.action = .copy → ¬ waits → otherOutbounds d.destination s t
        ∧ (t.outbound d.destination).transmission = .forward n e.sequence d.strip
        ∧ (t.outbound d.destination).lastWinner = .store n)
      ∧ ((s.head n).hold = true ∨ 1 ≤ leftBytes e d ∨ freeSlots (.completion n) s = 0 → t.rings = s.rings)
      ∧ ((s.head n).hold = true →
        t.deliveries = s.deliveries ∧ t.slots = s.slots ∧ t.bus = s.bus ∧ t.head n = { s.head n with timer := timer }
          ∧ t.store n = closedStore e abandon [{ closed with delivery := .pending }] (s.store n))
      ∧ ((s.head n).hold = false → freeSlots (.completion n) s = 0 →
        t.delivery n = { s.delivery n with state := .slotWait, leg := true } ∧ t.bus = s.bus
          ∧ t.slot (.completion n)
            = { s.slot (.completion n) with waiting := (s.slot (.completion n)).waiting ++ [.delivery] }
          ∧ t.head n = { s.head n with timer := timer }
          ∧ t.store n = closedStore e abandon [{ closed with delivery := .pending }] (s.store n))
      ∧ ((s.head n).hold = false → (s.slot (.completion n)).waiting.length < freeSlots (.completion n) s →
        1 ≤ leftBytes e d → (s.ring (.fill n)).count = 0 →
        t.delivery n = startedDelivery .recordWait (leftBytes e d) (s.delivery n) ∧ t.bus = s.bus
          ∧ t.slot (.completion n)
            = { s.slot (.completion n) with reserved := (s.slot (.completion n)).reserved + 1 }
          ∧ t.head n = { s.head n with timer := timer }
          ∧ t.store n = closedStore e abandon [{ closed with delivery := .active }] (s.store n))
      ∧ ((s.head n).hold = false → (s.slot (.completion n)).waiting.length + 1 < freeSlots (.completion n) s →
        1 ≤ leftBytes e d → 1 ≤ (s.ring (.fill n)).count →
        t.delivery n = { startedDelivery .fetch (leftBytes e d) (s.delivery n) with spareSlot := true }
          ∧ t.bus = s.bus ++ [.read ((s.ring (.fill n)).slotAddress (s.ring (.fill n)).consumer) 32]
          ∧ t.slot (.completion n)
            = { s.slot (.completion n) with reserved := (s.slot (.completion n)).reserved + 2 }
          ∧ t.head n = { s.head n with timer := timer }
          ∧ t.store n = closedStore e abandon [{ closed with delivery := .active }] (s.store n))
      ∧ ((s.head n).hold = false → (s.slot (.completion n)).waiting.length < freeSlots (.completion n) s →
        leftBytes e d = 0 →
        t.delivery n = { startedDelivery .idle 0 (s.delivery n) with leg := false, packetSlot := false }
          ∧ (t.slot (.completion n)).reserved = (s.slot (.completion n)).reserved
          ∧ (d.action = .deliver →
            t.head n = { s.head n with timer := none }
              ∧ t.store n = { closedStore e abandon [] (s.store n) with
                  occupied := (s.store n).occupied - e.stored,
                  readOffset := ((s.store n).readOffset + e.stored) % (s.store n).size })
          ∧ (d.action = .copy →
            t.head n = { s.head n with timer := timer }
              ∧ t.store n = closedStore e abandon [{ closed with delivery := .done }] (s.store n))
          ∧ ∃ more, t.bus = s.bus
            ++ .entry ((s.ring (.completion n)).slotAddress (s.ring (.completion n)).producer)
              (recordOf (deliveredBytes
                ⟨n, e.sequence, e.tag, some (if abandon then .abandon else .good), e.truncated, d.strip && e.tag.isSome, false,
                  false, none, 0, e.received, e.stamp, (s.ring (.fill n)).consumer, 0, 0⟩)) :: more)

/-- A line error (R18, R19) counts once, is the last cause, and takes the line to RECOVER with the quiet timer at 100 us, every
other timer stopped, and LINK_STATE (RECOVER, the error) posted. From CONNECT nothing else changes; from RUN the line undergoes
loss of RUN too (R23, R53, R133, R134). That the notice is written before the SENT entry (log entry 2) and before FORWARD_CUT
(log entry 9) is the model's order: R23 and R186 have each block write its own as it comes to it. CREDIT_VIOLATION is any
counted character at outstanding 0: a data byte, END or ABANDON. -/
def Obligations.LineErrorsEnterRecover : Prop :=
  ∀ (c : Instr) (cause : LineCause) (n : LineId) (s : State), s.part.state = .running →
    ((s.port n).state = .connect →
      ((c = .silence n ∧ (s.port n).silence = some 0 ∧ cause = .silence)
        ∨ (c = .handshakeTimeout n ∧ (s.port n).handshake = some 0 ∧ cause = .handshakeTimeout)
        ∨ (∃ x, c = .rxConnectChar n x ∧ decodeCharacter x = .failure ∧ cause = .codeError)
        ∨ (∃ x y, c = .rxConnectChar n x ∧ decodeCharacter x = .symbol y ∧ (s.port n).markPending = true
          ∧ cause = .codeError)) →
      ∃ t, exec c s = .next t ∧ frame (.ports :: noticeBlocks) s t ∧ otherPorts n s t
        ∧ noticed [.linkState n .recover cause] s t
        ∧ t.port n = { s.port n with
            state := .recover, silence := none, handshake := none, quiet := some 100, aligned := false,
            markPending := false, readyDue := false, markSlot := none, markValue := none,
            errors := (s.port n).errors + 1, lastCause := cause })
    ∧ ((s.port n).state = .run →
      ((c = .silence n ∧ (s.port n).silence = some 0 ∧ cause = .silence)
        ∨ (∃ x, c = .rxRunChar n x ∧ decodeCharacter x = .failure ∧ cause = .codeError)
        ∨ (∃ x y, c = .rxRunChar n x ∧ decodeCharacter x = .symbol y ∧ (s.port n).markPending = true ∧ cause = .codeError)
        ∨ (c = .rxRunChar n (symbolCharacter .hello) ∧ (s.port n).markPending = false ∧ cause = .remoteRestart)
        ∨ (∃ v, c = .rxRunChar n (dataCharacter v) ∧ (s.port n).markPending = false ∧ (s.credit n).outstanding = 0
          ∧ cause = .creditViolation)
        ∨ (∃ x ∈ [Symbol.close, .abandon], c = .rxRunChar n (symbolCharacter x) ∧ (s.port n).markPending = false
          ∧ (s.credit n).outstanding = 0 ∧ cause = .creditViolation)
        ∨ (∃ k, 1 ≤ k ∧ k ≤ 8 ∧ c = .rxRunChar n (symbolCharacter (.grant k)) ∧ (s.port n).markPending = false
          ∧ 1024 < (s.credit n).allowance + 16 * k ∧ cause = .grantOverflow)) →
      ∃ t, exec c s = .next t ∧ otherPorts n s t
        ∧ t.port n = { s.port n with
            state := .recover, silence := none, handshake := none, quiet := some 100, aligned := false,
            markPending := false, readyDue := false, markSlot := none, markValue := none,
            errors := (s.port n).errors + 1, lastCause := cause }
        ∧ lostRun n (.linkState n .recover cause) s t)

/-- The end of the quiet time (R20): LISTEN with auto-restart on, OFF with it off, with its notice and cause NONE; the error
record stays. -/
def Obligations.TheQuietTimeEnds : Prop :=
  ∀ (n : LineId) (s : State), s.part.state = .running → (s.port n).state = .recover → (s.port n).quiet = some 0 →
    ∃ t, exec (.quietTimerExpiry n) s = .next t ∧ frame (.ports :: noticeBlocks) s t ∧ otherPorts n s t
      ∧ noticed [.linkState n (if (s.port n).autoRestart then .listen else .off) .none] s t
      ∧ t.port n = { s.port n with
          state := if (s.port n).autoRestart then .listen else .off, silence := none, handshake := none, quiet := none,
          aligned := false, markPending := false, readyDue := false, markSlot := none, markValue := none }

/-- What a boundary sends (R17; R8, R10, R11, R19 out of RUN): in RUN the first of the mark value kept, the due READY, the MARK
of the slot, the offered GRANT, which raises outstanding, a data byte of the packet under allowance, which it lowers and which
makes room for further reads (R126), and NULL. -/
def Obligations.BoundariesSendTheFirstCaseOfR17 : Prop :=
  ∀ (n : LineId) (s : State), s.part.state = .running →
    ((s.port n).state = .off ∨ (s.port n).state = .recover
        ∨ ((s.port n).state = .listen ∧ (s.port n).initiative = .passive) →
      exec (.characterBoundary n) s = .next s)
    ∧ ∃ t, exec (.characterBoundary n) s = .next t ∧ (∀ m, m ≠ n → t.wire m = s.wire m)
      ∧ ((s.port n).state = .listen → (s.port n).initiative = .active →
        t.wire n = s.wire n ++ [symbolCharacter .hello] ∧ frame [.wires] s t)
      ∧ ((s.port n).state = .connect → t.wire n = s.wire n ++ [symbolCharacter .ready] ∧ frame [.wires] s t)
      ∧ ((s.port n).state = .run →
        (∀ v, (s.port n).markValue = some v →
          t.wire n = s.wire n ++ [dataCharacter v] ∧ frame [.wires, .ports] s t ∧ otherPorts n s t
            ∧ t.port n = { s.port n with markValue := none })
        ∧ ((s.port n).markValue = none → (s.port n).readyDue = true →
          t.wire n = s.wire n ++ [symbolCharacter .ready] ∧ frame [.wires, .ports] s t ∧ otherPorts n s t
            ∧ t.port n = { s.port n with readyDue := false })
        ∧ ((s.port n).markValue = none → (s.port n).readyDue = false →
          (∀ v, (s.port n).markSlot = some v →
            t.wire n = s.wire n ++ [symbolCharacter .mark] ∧ frame [.wires, .ports] s t ∧ otherPorts n s t
              ∧ t.port n = { s.port n with markSlot := none, markValue := some v })
          ∧ ((s.port n).markSlot = none →
            (∀ k, (s.credit n).offer = some k →
              t.wire n = s.wire n ++ [symbolCharacter (.grant k)] ∧ frame [.wires, .credits] s t ∧ otherCredits n s t
                ∧ t.credit n = { s.credit n with
                    outstanding := (s.credit n).outstanding + 16 * k,
                    offer := offerOf (creditBound (s.store n) - ((s.credit n).outstanding + 16 * k)) })
            ∧ ((s.credit n).offer = none →
              (∀ v rest, (s.outbound n).transmission ≠ .none → 1 ≤ (s.credit n).allowance →
                (s.outbound n).staging.bytes = v :: rest →
                ∃ u, t = issueReads n u ∧ u.wire n = s.wire n ++ [dataCharacter v]
                  ∧ frame [.wires, .credits, .outbounds] s u ∧ otherCredits n s u ∧ otherOutbounds n s u
                  ∧ u.credit n = { s.credit n with allowance := (s.credit n).allowance - 1 }
                  ∧ u.outbound n = { s.outbound n with
                      bytesSent := (s.outbound n).bytesSent + 1,
                      staging := ⟨rest, (s.outbound n).staging.reads, (s.outbound n).staging.todo⟩ })
              ∧ ((s.outbound n).transmission = .none ∨ (s.credit n).allowance = 0
                  ∨ ((s.outbound n).staging.bytes = [] ∧ (s.outbound n).staging.reads ≠ []) →
                t.wire n = s.wire n ++ [symbolCharacter .null] ∧ frame [.wires] s t)))))

/-- The closing character (R125 to R127, R130, R131): with every byte of a host packet taken, or a read error taken, the
transmitter sends END or ABANDON under allowance and the chain's SENT entry stands in its reserved slot, with the bytes sent and
the end kind, and the arbiter grants a requester that is present (R123). An INVALID chain held meanwhile is reported BAD_CHAIN
behind it, in its own slot, and the engine is in WAIT_RECORD again (R121), here with no record posted. -/
def Obligations.ClosingCharactersEndHostPackets : Prop :=
  ∀ (n : LineId) (c : Chain) (s : State), s.part.state = .running → (s.port n).state = .run → (s.port n).markValue = none →
    (s.port n).readyDue = false → (s.port n).markSlot = none → (s.credit n).offer = none → 1 ≤ (s.credit n).allowance →
    (s.outbound n).transmission = .host c → (s.outbound n).staging = ⟨[], [], []⟩ →
    let g := s.ring (.completion n)
    ∃ u kind, exec (.characterBoundary n) s = .next (arbitrate n u)
      ∧ kind = (if (s.outbound n).failure ≠ .none ∨ (c.records.getLast?.map (·.abandon)) = some true
          then EndKind.abandon else .good)
      ∧ u.wire n = s.wire n ++ [symbolCharacter (if kind = .abandon then .abandon else .close)]
      ∧ frame [.wires, .credits, .outbounds, .rings, .slots, .bus] s u ∧ otherCredits n s u ∧ otherOutbounds n s u
      ∧ otherRings (.completion n) s u ∧ otherSlots (.completion n) s u
      ∧ u.credit n = { s.credit n with allowance := (s.credit n).allowance - 1 }
      ∧ (∃ rest, u.bus = s.bus ++ .entry (g.slotAddress g.producer)
          (recordOf (sentBytes
            ⟨n, (c.records.head?.map (·.index)).getD 0, c.records.length, (c.records.getLast?.map (·.cookie)).getD 0,
              (s.outbound n).bytesSent, if (s.outbound n).failure = .none then .ok else .hostReadError, some kind⟩)) :: rest
        ∧ ∀ x, (s.outbound n).held = some x → x.verdict = .invalid → (s.ring (.send n)).count = 0 →
          ∃ more tail, rest = more ++ .entry (g.slotAddress (g.producer + 1))
            (recordOf (sentBytes
              ⟨n, (x.records.head?.map (·.index)).getD 0, x.records.length, (x.records.getLast?.map (·.cookie)).getD 0, 0,
                .badChain, none⟩)) :: tail)
      ∧ ((∀ x, (s.outbound n).held = some x → x.verdict ≠ .invalid) →
        u.outbound n = { s.outbound n with transmission := .none, bytesSent := 0, failure := .none }
          ∧ (u.slot (.completion n)).reserved = (s.slot (.completion n)).reserved - 1
          ∧ (u.ring (.completion n)).producer = g.producer + 1)
      ∧ ∀ x, (s.outbound n).held = some x → x.verdict = .invalid → (s.ring (.send n)).count = 0 →
        u.outbound n = { s.outbound n with
            transmission := .none, bytesSent := 0, failure := .none, held := none, fetch := .waitRecord }
          ∧ (u.slot (.completion n)).reserved = (s.slot (.completion n)).reserved - 2
          ∧ (u.ring (.completion n)).producer = g.producer + 2

/-- The end of a forward (R128, R130, R132, R80, R82). With every byte taken, or a store fault taken, the transmitter sends END
for a good packet and ABANDON for a bad or a faulted one; the leg is DONE or FAILED(STORE_FAULT), and no entry is written. The
arbiter then grants a requester that is present (R123). The source's head stays while its delivery runs or waits, and with no
other leg live it retires (`headRetired`): counted expired with HEAD_EXPIRED if its mark is set (R89), a flush that waits for it
ends with its count (R91), packets discarded behind it retire too (R76), and a COMPLETE entry left at the front is decided, here
under hold (R74). -/
def Obligations.ForwardsEndAndSettleTheirHead : Prop :=
  ∀ (n i : LineId) (q : BitVec 16) (b : Bool) (h : IndexEntry) (rest : List IndexEntry) (d : Disposition) (s : State),
    s.part.state = .running → (s.port n).state = .run → (s.port n).markValue = none → (s.port n).readyDue = false →
    (s.port n).markSlot = none → (s.credit n).offer = none → 1 ≤ (s.credit n).allowance →
    (s.outbound n).transmission = .forward i q b → (s.outbound n).staging = ⟨[], [], []⟩ → (s.store i).index = h :: rest →
    h.state = .complete → h.disposition = some d →
    ∃ u good leg, good = decide ((s.outbound n).failure = .none ∧ h.endKind = some .good ∧ h.truncated = false)
      ∧ leg = (if (s.outbound n).failure = .none then Leg.done else .failed .storeFault)
      ∧ frame [.wires, .credits, .outbounds, .stores] s u
      ∧ u.wire n = s.wire n ++ [symbolCharacter (if good then .close else .abandon)] ∧ (∀ m, m ≠ n → u.wire m = s.wire m)
      ∧ otherCredits n s u ∧ u.credit n = { s.credit n with allowance := (s.credit n).allowance - 1 }
      ∧ transmitterEmptied n s u ∧ otherStores i s u
      ∧ u.store i = { s.store i with index := { h with forward := leg } :: rest }
      ∧ (deliveryStays i h s → exec (.characterBoundary n) s = .next (arbitrate n u))
      ∧ (h.delivery ≠ .pending → h.delivery ≠ .active → d.action ≠ .discard → quietNext i rest s →
        ∃ t, exec (.characterBoundary n) s = .next t
          ∧ frame (.credits :: .stores :: .heads :: .command :: noticeBlocks) (arbitrate n u) t
          ∧ headRetired i { h with forward := leg } rest (s.head i).expired (arbitrate n u) t)

/-- The codes of 10.7 (R1, R2), by value: the kind bit goes first and is 1 for a symbol, then bits 0 to 7 of the code or the
data byte, then the parity bit, so that the count of ones in all ten bits is odd; the characters that 10.7 works out are as it
says. Every symbol and every data byte is sent as a well-formed character that decodes to it, and every character that decodes
is the one sent for what it decodes to. -/
def Obligations.CharactersDecodeToWhatWasSent : Prop :=
  (∀ x (code : Byte),
      (x, code) ∈ [(Symbol.null, 0x0F), (.hello, 0x3C), (.ready, 0x5A), (.grant 1, 0x80), (.grant 2, 0x81), (.grant 3, 0x82),
        (.grant 4, 0x83), (.grant 5, 0x84), (.grant 6, 0x85), (.grant 7, 0x86), (.grant 8, 0x87), (.mark, 0xB4),
        (.abandon, 0xD2), (.close, 0xE1)] →
      (symbolCharacter x).getLsbD 0 = true ∧ ∀ k, k < 8 → (symbolCharacter x).getLsbD (1 + k) = code.getLsbD k)
  ∧ (∀ v : Byte, (dataCharacter v).getLsbD 0 = false ∧ ∀ k, k < 8 → (dataCharacter v).getLsbD (1 + k) = v.getLsbD k)
  ∧ (∀ c, charParityOdd c = decide (((List.range 10).filter (fun k => c.getLsbD k)).length % 2 = 1))
  ∧ symbolCharacter .null = 0x01F ∧ symbolCharacter .ready = 0x0B5 ∧ symbolCharacter (.grant 2) = 0x103
  ∧ dataCharacter 0 = 0x200
  ∧ (∀ v, decodeCharacter (dataCharacter v) = .data v ∧ charParityOdd (dataCharacter v) = true)
  ∧ (∀ x, (∀ k, x = .grant k → 1 ≤ k ∧ k ≤ 8) →
      decodeCharacter (symbolCharacter x) = .symbol x ∧ charParityOdd (symbolCharacter x) = true)
  ∧ (∀ c v, decodeCharacter c = .data v → c = dataCharacter v)
  ∧ (∀ c x, decodeCharacter c = .symbol x → c = symbolCharacter x ∧ ∀ k, x = .grant k → 1 ≤ k ∧ k ≤ 8)

/-! ## Time -/

/-- A mark accepted from the source line (R145) and an internal advance (R146): the new epoch, the fine counter 0, the skew
count raised for a mark that is not epoch + 1, the value in the mark slot of every line in RUN with mark-out on but the source
(R147, R148), and a MARK notice exactly when the switch is on (R150). -/
def Obligations.TheEpochMovesAndIsRelayed : Prop :=
  ∀ (c : Instr) (source : Option LineId) (v : BitVec 8) (s : State), s.part.state = .running →
    ((c = .periodTimerExpiry ∧ source = none ∧ v = s.time.epoch + 1 ∧ s.time.source = .internal ∧ s.time.timer = some 0)
      ∨ (∃ n, c = .rxRunChar n (dataCharacter v) ∧ source = some n ∧ s.time.source = .line n ∧ (s.port n).state = .run
        ∧ (s.port n).markPending = true)) →
    ∃ t, exec c s = .next t ∧ frame (.ports :: .time :: noticeBlocks) s t
      ∧ t.time = { s.time with
          epoch := v, fine := 0,
          skew := if source ≠ none ∧ v ≠ s.time.epoch + 1 then s.time.skew + 1 else s.time.skew,
          timer := if source = none then some (s.time.period * 1000) else s.time.timer }
      ∧ noticed (if s.time.notices then [.mark source v s.time.epoch (decide (v ≠ s.time.epoch + 1)) t.time.skew] else []) s t
      ∧ ∀ m, (t.port m).markSlot
            = (if (s.port m).state = .run ∧ (s.port m).markOut = true ∧ source ≠ some m then some v else (s.port m).markSlot)
          ∧ (t.port m).state = (s.port m).state ∧ (t.port m).errors = (s.port m).errors
          ∧ (source = some m → t.port m = { s.port m with silence := some 20, markPending := false })
          ∧ (source ≠ some m → t.port m = { s.port m with markSlot := (t.port m).markSlot })

/-- A microsecond (R142): in HALTED, LOADING and RUNNING the fine counter goes up by 1 and stays at 16777215; in FAULTED it
stands still (R153). That the tick counts the running timers down too, and that an expiry is an event taken at 0, is the model's
choice (log entry 5): an expiry taken behind what stopped or restarted its timer does not happen (R13, R14, R20, R88, R152). -/
def Obligations.TheFineCounterCountsMicroseconds : Prop :=
  ∀ s : State,
    (s.part.state ≠ .faulted →
      ∃ t, exec .fineCounterTick s = .next t ∧ frame [.time, .ports, .heads] s t
        ∧ t.time.fine.toNat = min (s.time.fine.toNat + 1) 16777215
        ∧ t.time = { s.time with fine := t.time.fine, timer := s.time.timer.map (· - 1) }
        ∧ ∀ n, t.port n = { s.port n with
              silence := (s.port n).silence.map (· - 1), handshake := (s.port n).handshake.map (· - 1),
              quiet := (s.port n).quiet.map (· - 1) }
            ∧ t.head n = { s.head n with timer := (s.head n).timer.map (· - 1) })
    ∧ (s.part.state = .faulted → exec .fineCounterTick s = .next s)
    ∧ (s.time.timer ≠ some 0 ∨ s.time.source ≠ .internal → exec .periodTimerExpiry s = .next s)
    ∧ ∀ n, ((s.port n).handshake ≠ some 0 → exec (.handshakeTimeout n) s = .next s)
      ∧ ((s.port n).silence ≠ some 0 → exec (.silence n) s = .next s)
      ∧ ((s.port n).quiet ≠ some 0 → exec (.quietTimerExpiry n) s = .next s)
      ∧ ((s.head n).timer ≠ some 0 → exec (.headTimerExpiry n) s = .next s)

/-! ## The engines -/

/-- HEAD_TIMER_EXPIRY (R86, R87, R89). A head whose one live leg is a PENDING forward fails that leg and retires at once,
counted expired, with HEAD_EXPIRED; a flush that waits for it ends and does not count it (R91, R92). A delivery in FETCH or
WRITE, and a forward in transmission, run on under the expired mark, and a PENDING forward beside the delivery fails. An offered
delivery leg that waits for its slot fails in the same way, and its request is withdrawn. A delivery stalled on an empty fill
ring, or in SPARE_WAIT, whose request is withdrawn, ends partial (R108): its DELIVERED entry carries EXPIRED, a PENDING forward
beside it fails, and with no forward ACTIVE the head retires, with what `headRetired` says of the entries behind it; that
DELIVERED is written before the HEAD_EXPIRED notice of the same step is the model's order (log entry 2). -/
def Obligations.ExpiryActsOnTheLegs : Prop :=
  ∀ (n : LineId) (e : IndexEntry) (rest : List IndexEntry) (d : Disposition) (s : State), s.part.state = .running →
    (s.head n).timer = some 0 → (s.store n).index = e :: rest → e.state = .complete → e.disposition = some d →
    let forward := if e.forward = .pending then .failed .expired else e.forward
    let retiring := frame (.credits :: .stores :: .heads :: .deliveries :: .command :: noticeBlocks) s
    (e.delivery ≠ .pending → e.delivery ≠ .active → e.forward = .pending → d.action ≠ .discard → (s.delivery n).state = .idle →
      quietNext n rest s →
      ∃ t, exec (.headTimerExpiry n) s = .next t ∧ retiring t ∧ t.deliveries = s.deliveries
        ∧ headRetired n { e with forward := forward } rest true s t)
    ∧ ((e.delivery = .active ∧ ((s.delivery n).state = .fetch ∨ (s.delivery n).state = .write))
        ∨ (e.delivery ≠ .pending ∧ e.delivery ≠ .active ∧ e.forward = .active ∧ (s.delivery n).state = .idle) →
      ∃ t, exec (.headTimerExpiry n) s = .next t ∧ frame [.stores, .heads] s t ∧ otherStores n s t ∧ otherHeads n s t
        ∧ t.head n = { s.head n with timer := none, expired := true }
        ∧ t.store n = { s.store n with index := { e with forward := forward } :: rest })
    ∧ (d.action ≠ .discard →
      ∃ v, frame [.slots] s v ∧ otherSlots (.completion n) s v
        ∧ v.slot (.completion n) = { s.slot (.completion n) with
            waiting := (s.slot (.completion n)).waiting.filter (· != .delivery) }
        ∧ (e.delivery = .pending → (s.delivery n).state = .slotWait → e.forward ≠ .active → quietNext n rest s →
          ∃ t, exec (.headTimerExpiry n) s = .next t ∧ retiring t ∧ otherDeliveries n s t
            ∧ t.delivery n = { s.delivery n with state := .idle, leg := false, records := [], current := none }
            ∧ headRetired n { e with delivery := .failed .expired, forward := forward } rest true v t)
        ∧ (e.delivery = .active → (s.delivery n).spareSlot = false →
          ((s.delivery n).state = .recordWait ∧ (s.ring (.fill n)).count = 0) ∨ (s.delivery n).state = .spareWait →
          ∃ t u, exec (.headTimerExpiry n) s = .next t ∧ retiring t ∧ otherCredits n s t ∧ otherStores n s t
            ∧ otherDeliveries n s t
            ∧ t.delivery n = { s.delivery n with
                state := .idle, leg := false, packetSlot := false, records := [], current := none, partialEnd := true }
            ∧ u = writeReserved (.completion n)
                (deliveredBytes
                  ⟨n, e.sequence, e.tag, e.endKind, e.truncated, d.strip && e.tag.isSome, (s.delivery n).short, true,
                    (s.delivery n).faultPosition, (s.delivery n).delivered, e.received, e.stamp,
                    ((s.delivery n).records.head?.map (·.index)).getD (s.ring (.fill n)).consumer,
                    (s.delivery n).records.length, ((s.delivery n).records.head?.map (·.cookie)).getD 0⟩) v
            ∧ (e.forward ≠ .active → quietNext n rest s →
              headRetired n { e with delivery := .failed .expired, forward := forward } rest true u t)
            ∧ (e.forward = .active →
              t.store n = { s.store n with index := { e with delivery := .failed .expired } :: rest } ∧ otherHeads n s t
                ∧ t.head n = { s.head n with timer := none, expired := true } ∧ t.credits = s.credits
                ∧ t.command = s.command ∧ noticed [] u t)))

/-- FILL_RECORD_READ_DONE and DELIVERY_RECORD_RESUME (R99 to R103, R107). The record is taken: the consumer index rises and goes
to the progress block (log entry 23). A valid one gives the spare slot back and is the current record in WRITE; an invalid one
is reported in the spare slot, and with the fill ring empty the leg stalls in RECORD_WAIT, or, with the head expired, ends
partial (R108), its DELIVERED entry behind the FILL_REJECTED one, and the head retires if no forward is live. A stalled leg that
finds a record reserves a slot and reads it, waits in SPARE_WAIT with no slot free, and stays as it is while the ring is empty.
-/
def Obligations.FillRecordsAreTakenAndJudged : Prop :=
  ∀ (n : LineId) (e : IndexEntry) (rest : List IndexEntry) (r : Record) (s : State), s.part.state = .running →
    (s.store n).index = e :: rest → e.state = .complete → e.disposition ≠ none → e.delivery = .active →
    let f : FillRecord := ⟨(s.ring (.fill n)).consumer, recordU64 r 0, recordU32 r 8, recordU32 r 12⟩
    let taken : HostOp :=
      .progressIndex (s.part.progress + BitVec.ofNat 64 (2 * (6 + lineNumber n))) ((s.ring (.fill n)).consumer + 1)
    ((s.delivery n).state = .fetch → f.size ≠ 0 → f.size.toNat % 8 = 0 → f.size.toNat ≤ 65536 → f.address.toNat % 8 = 0 →
      ∃ t, exec (.fillRecordReadDone n (some r)) s = .next t ∧ frame [.rings, .slots, .deliveries, .bus] s t
        ∧ otherRings (.fill n) s t ∧ otherSlots (.completion n) s t ∧ otherDeliveries n s t
        ∧ t.ring (.fill n) = { s.ring (.fill n) with consumer := (s.ring (.fill n)).consumer + 1 }
        ∧ t.slot (.completion n)
            = { s.slot (.completion n) with reserved := (s.slot (.completion n)).reserved - 1 }
        ∧ t.delivery n = { s.delivery n with
            state := .write, spareSlot := false, records := (s.delivery n).records ++ [f], current := some ⟨f, 0⟩ }
        ∧ t.bus = s.bus ++ [taken])
    ∧ ((s.delivery n).state = .fetch →
      f.size = 0 ∨ f.size.toNat % 8 ≠ 0 ∨ 65536 < f.size.toNat ∨ f.address.toNat % 8 ≠ 0 →
      (s.ring (.fill n)).count = 1 → (s.head n).expired = false →
      ∃ t, exec (.fillRecordReadDone n (some r)) s = .next t ∧ frame [.rings, .slots, .deliveries, .bus] s t
        ∧ (∀ q, q ≠ .fill n → q ≠ .completion n → t.ring q = s.ring q) ∧ otherSlots (.completion n) s t
        ∧ otherDeliveries n s t
        ∧ t.ring (.fill n) = { s.ring (.fill n) with consumer := (s.ring (.fill n)).consumer + 1 }
        ∧ t.ring (.completion n)
            = { s.ring (.completion n) with producer := (s.ring (.completion n)).producer + 1 }
        ∧ t.slot (.completion n)
            = { s.slot (.completion n) with reserved := (s.slot (.completion n)).reserved - 1, armed := false }
        ∧ t.delivery n = { s.delivery n with state := .recordWait, spareSlot := false }
        ∧ ∃ more, t.bus = s.bus ++ taken
            :: .entry ((s.ring (.completion n)).slotAddress (s.ring (.completion n)).producer)
              (recordOf (fillRejectedBytes ⟨n, f, e.sequence⟩)) :: more)
    ∧ (∀ d u v, (s.delivery n).state = .fetch →
      f.size = 0 ∨ f.size.toNat % 8 ≠ 0 ∨ 65536 < f.size.toNat ∨ f.address.toNat % 8 ≠ 0 →
      (s.ring (.fill n)).count = 1 → (s.head n).expired = true → .delivery ∉ (s.slot (.completion n)).waiting →
      e.disposition = some d →
      frame [.rings, .bus] s u → otherRings (.fill n) s u →
      u.ring (.fill n) = { s.ring (.fill n) with consumer := (s.ring (.fill n)).consumer + 1 } → u.bus = s.bus ++ [taken] →
      v = writeReserved (.completion n)
        (deliveredBytes
          ⟨n, e.sequence, e.tag, e.endKind, e.truncated, d.strip && e.tag.isSome, (s.delivery n).short, true,
            (s.delivery n).faultPosition, (s.delivery n).delivered, e.received, e.stamp,
            ((s.delivery n).records.head?.map (·.index)).getD ((s.ring (.fill n)).consumer + 1),
            (s.delivery n).records.length, ((s.delivery n).records.head?.map (·.cookie)).getD 0⟩)
        (writeReserved (.completion n) (fillRejectedBytes ⟨n, f, e.sequence⟩) u) →
      ∃ t, exec (.fillRecordReadDone n (some r)) s = .next t
        ∧ frame (.credits :: .stores :: .heads :: .deliveries :: .command :: noticeBlocks) s t ∧ otherCredits n s t
        ∧ otherStores n s t ∧ otherHeads n s t ∧ otherDeliveries n s t
        ∧ t.delivery n = { s.delivery n with
            state := .idle, leg := false, packetSlot := false, spareSlot := false, records := [], current := none,
            partialEnd := true }
        ∧ (e.forward = .pending ∨ e.forward = .active →
          t.store n = { s.store n with index := { e with delivery := .failed .expired } :: rest } ∧ t.heads = s.heads
            ∧ t.credits = s.credits ∧ t.command = s.command ∧ noticed [] v t)
        ∧ (e.forward ≠ .pending → e.forward ≠ .active → d.action ≠ .discard → quietNext n rest s →
          headRetired n { e with delivery := .failed .expired } rest true v t))
    ∧ ((s.delivery n).state = .recordWait → (s.ring (.fill n)).count = 0 → exec (.deliveryRecordResume n) s = .next s)
    ∧ ((s.delivery n).state = .recordWait → 1 ≤ (s.ring (.fill n)).count →
      (s.slot (.completion n)).waiting.length < freeSlots (.completion n) s →
      ∃ t, exec (.deliveryRecordResume n) s = .next t ∧ frame [.slots, .deliveries, .bus] s t
        ∧ otherSlots (.completion n) s t ∧ otherDeliveries n s t
        ∧ t.slot (.completion n)
            = { s.slot (.completion n) with reserved := (s.slot (.completion n)).reserved + 1 }
        ∧ t.delivery n = { s.delivery n with state := .fetch, spareSlot := true }
        ∧ t.bus = s.bus ++ [.read ((s.ring (.fill n)).slotAddress (s.ring (.fill n)).consumer) 32])
    ∧ ((s.delivery n).state = .recordWait → 1 ≤ (s.ring (.fill n)).count → freeSlots (.completion n) s = 0 →
      (s.head n).expired = false →
      ∃ t, exec (.deliveryRecordResume n) s = .next t ∧ frame [.slots, .deliveries] s t
        ∧ otherSlots (.completion n) s t ∧ otherDeliveries n s t
        ∧ t.slot (.completion n)
            = { s.slot (.completion n) with waiting := (s.slot (.completion n)).waiting ++ [.delivery] }
        ∧ t.delivery n = { s.delivery n with state := .spareWait })

/-- DELIVERY_BUFFER_DONE (R104, R105, R108, R109, R111). The next bytes of the packet go into the current buffer, each as the
memory holds it but in an uncorrectable word, whose bytes may be anything (log entry 1); that they go out as one write, read
from the store then, is the model's (log entry 24), as is a buffer address modulo 2^64 (log entry 32). The first uncorrectable
word sets the fault position. With bytes left the leg needs a record: it stalls on an empty fill ring, reads a posted one with a
spare slot free, and waits in SPARE_WAIT with none. With all written, or short at the sixteenth record, DELIVERED is written in
the packet slot and the leg is DONE; with bytes left, the head expired, and no record or no slot, the leg ends partial,
FAILED(EXPIRED), and DELIVERED carries EXPIRED. A head with its forward live stays. One with no other live leg retires
(`headRetired`): counted expired with HEAD_EXPIRED if its mark is set (R82, R89), a flush that waits for it ends with its count
(R91, R187), packets discarded behind it retire too (R76), and a COMPLETE entry left at the front is decided, here under hold
(R74). -/
def Obligations.BuffersAreWrittenAndReported : Prop :=
  ∀ (n : LineId) (e : IndexEntry) (rest : List IndexEntry) (d : Disposition) (c : CurrentRecord) (s : State),
    s.part.state = .running → (s.store n).index = e :: rest → e.state = .complete → e.disposition = some d →
    e.delivery = .active → (s.delivery n).state = .write → (s.delivery n).current = some c →
    (s.delivery n).partialEnd = false →
    ∃ (t : State) (bytes : List Byte) (more : List HostOp) (size : Nat) (addresses : List Nat) (fault : Option Nat),
      size = min ((s.delivery n).toDeliver - (s.delivery n).delivered) (c.record.size.toNat - c.written)
        ∧ addresses = (List.range size).map (fun k =>
            (s.store n).address (e.offset + (if d.strip ∧ e.tag ≠ none then 1 else 0) + (s.delivery n).delivered + k))
        ∧ fault = (match (s.delivery n).faultPosition, addresses.findIdx? (fun a => s.ddr.bad a) with
            | some p, _ => some p
            | none, some k => some ((s.delivery n).delivered + k)
            | none, none => none)
        ∧ exec (.deliveryBufferDone n) s = .next t ∧ sameMemory s t
        ∧ bytes.length = size
        ∧ (∀ (k a : Nat), addresses[k]? = some a → s.ddr.bad a = false → bytes[k]? = some (cellRead s.ddr.cells a))
        ∧ t.bus = s.bus ++ .buffer (c.record.address + BitVec.ofNat 64 c.written) bytes :: more
        ∧ ((s.delivery n).delivered + size < (s.delivery n).toDeliver → (s.delivery n).records.length < 16 →
            (s.ring (.fill n)).count = 0 → (s.head n).expired = false →
          more = [] ∧ frame [.deliveries, .bus] s t ∧ otherDeliveries n s t
            ∧ t.delivery n = { s.delivery n with
                state := .recordWait, delivered := (s.delivery n).delivered + size, current := none, faultPosition := fault })
        ∧ ((s.delivery n).delivered + size < (s.delivery n).toDeliver → (s.delivery n).records.length < 16 →
            1 ≤ (s.ring (.fill n)).count →
          ((s.slot (.completion n)).waiting.length < freeSlots (.completion n) s →
            more = [.read ((s.ring (.fill n)).slotAddress (s.ring (.fill n)).consumer) 32]
              ∧ frame [.deliveries, .slots, .bus] s t ∧ otherDeliveries n s t ∧ otherSlots (.completion n) s t
              ∧ t.slot (.completion n)
                = { s.slot (.completion n) with reserved := (s.slot (.completion n)).reserved + 1 }
              ∧ t.delivery n = { s.delivery n with
                  state := .fetch, spareSlot := true, delivered := (s.delivery n).delivered + size, current := none,
                  faultPosition := fault })
          ∧ (freeSlots (.completion n) s ≤ (s.slot (.completion n)).waiting.length → (s.head n).expired = false →
            more = [] ∧ frame [.deliveries, .slots, .bus] s t ∧ otherDeliveries n s t ∧ otherSlots (.completion n) s t
              ∧ t.slot (.completion n)
                = { s.slot (.completion n) with waiting := (s.slot (.completion n)).waiting ++ [.delivery] }
              ∧ t.delivery n = { s.delivery n with
                  state := .spareWait, delivered := (s.delivery n).delivered + size, current := none,
                  faultPosition := fault }))
        ∧ ∀ (left short atEnd : Bool) (leg : Leg) (u : State),
          left = decide ((s.delivery n).delivered + size < (s.delivery n).toDeliver) →
          short = (left && decide (16 ≤ (s.delivery n).records.length)) → atEnd = (left && !short) →
          (atEnd = true → (s.head n).expired = true ∧ (s.delivery n).spareSlot = false
            ∧ .delivery ∉ (s.slot (.completion n)).waiting
            ∧ ((s.ring (.fill n)).count = 0 ∨ freeSlots (.completion n) s ≤ (s.slot (.completion n)).waiting.length)) →
          (s.delivery n).short = false → leg = (if atEnd then .failed .expired else .done) →
          u = writeReserved (.completion n)
            (deliveredBytes
              ⟨n, e.sequence, e.tag, e.endKind, e.truncated, d.strip && e.tag.isSome, short, atEnd, fault,
                (s.delivery n).delivered + size, e.received, e.stamp,
                ((s.delivery n).records.head?.map (·.index)).getD (s.ring (.fill n)).consumer,
                (s.delivery n).records.length, ((s.delivery n).records.head?.map (·.cookie)).getD 0⟩)
            { s with bus := s.bus ++ [.buffer (c.record.address + BitVec.ofNat 64 c.written) bytes] } →
          frame (.credits :: .stores :: .heads :: .deliveries :: .command :: noticeBlocks) s t
            ∧ otherCredits n s t ∧ otherStores n s t ∧ otherHeads n s t ∧ otherDeliveries n s t
            ∧ t.delivery n = { s.delivery n with
                state := .idle, leg := false, packetSlot := false, delivered := (s.delivery n).delivered + size, records := [],
                current := none, faultPosition := fault, short := short, partialEnd := atEnd }
            ∧ (e.forward = .pending ∨ e.forward = .active →
              t.store n = { s.store n with index := { e with delivery := leg } :: rest } ∧ t.heads = s.heads
                ∧ t.credits = s.credits ∧ t.command = s.command ∧ noticed [] u t)
            ∧ (e.forward ≠ .pending → e.forward ≠ .active → d.action ≠ .discard → quietNext n rest s →
              headRetired n { e with delivery := leg } rest (s.head n).expired u t)

/-- SEND_RECORD_READ_DONE with no cancel in progress (R118 to R121). The record is taken, with a progress write of its own (log
entry 23), and joins the chain. A chain that goes on reads its next record, or waits for it with none posted; a whole VALID one
with a slot free is held and goes to the arbiter (R122), and an INVALID one behind a host chain in transmission is held for its
report (R121); a whole INVALID one, with no host chain in transmission, is reported BAD_CHAIN at once in its slot; with no slot
free the judged chain waits in SLOT_WAIT. -/
def Obligations.SendRecordsMakeChains : Prop :=
  ∀ (n : LineId) (r : Record) (s : State), s.part.state = .running → (s.outbound n).fetch = .fetch →
    (s.outbound n).cancel = none → (s.outbound n).held = none →
    let f : SendRecord :=
      ⟨(s.ring (.send n)).consumer, recordU64 r 0, recordU16 r 8, r.getLsbD 80, r.getLsbD 81, recordU32 r 12⟩
    let chain := (s.outbound n).assembly ++ [f]
    let verdict : Verdict :=
      if f.continues = true ∨ 65535 < (chain.map (fun x => x.length.toNat)).sum then .invalid else .valid
    let taken : HostOp :=
      .progressIndex (s.part.progress + BitVec.ofNat 64 (2 * (2 + lineNumber n))) ((s.ring (.send n)).consumer + 1)
    ∃ t, exec (.sendRecordReadDone n (some r)) s = .next t ∧ frame [.rings, .slots, .outbounds, .bus, .stores] s t
      ∧ t.ring (.send n) = { s.ring (.send n) with consumer := (s.ring (.send n)).consumer + 1 }
      ∧ otherOutbounds n s t ∧ otherSlots (.completion n) s t
      ∧ (f.continues = true → (s.outbound n).assembly.length < 15 → 2 ≤ (s.ring (.send n)).count →
          (s.port n).configured = true →
        frame [.rings, .outbounds, .bus] s t ∧ otherRings (.send n) s t
          ∧ t.bus = s.bus ++ [taken, .read ((s.ring (.send n)).slotAddress ((s.ring (.send n)).consumer + 1)) 32]
          ∧ t.outbound n = { s.outbound n with assembly := chain })
      ∧ (f.continues = true → (s.outbound n).assembly.length < 15 → (s.ring (.send n)).count = 1 →
        frame [.rings, .outbounds, .bus] s t ∧ otherRings (.send n) s t ∧ t.bus = s.bus ++ [taken]
          ∧ t.outbound n = { s.outbound n with fetch := .waitRecord, assembly := chain })
      ∧ (f.continues = false ∨ (s.outbound n).assembly.length = 15 →
        ((s.slot (.completion n)).waiting.length < freeSlots (.completion n) s →
            verdict = .valid ∨ (∃ c, (s.outbound n).transmission = .host c) →
          ∃ u, t = (if verdict = .valid then arbitrate n u else u) ∧ frame [.rings, .slots, .outbounds, .bus] s u
            ∧ otherRings (.send n) s u ∧ otherSlots (.completion n) s u ∧ otherOutbounds n s u ∧ u.bus = s.bus ++ [taken]
            ∧ u.ring (.send n) = { s.ring (.send n) with consumer := (s.ring (.send n)).consumer + 1 }
            ∧ u.outbound n = { s.outbound n with
                fetch := .holding, assembly := [], waiting := none, held := some ⟨chain, verdict⟩ }
            ∧ u.slot (.completion n)
                = { s.slot (.completion n) with reserved := (s.slot (.completion n)).reserved + 1 })
        ∧ ((s.slot (.completion n)).waiting.length < freeSlots (.completion n) s → verdict = .invalid →
            (∀ c, (s.outbound n).transmission ≠ .host c) → (s.ring (.send n)).count = 1 →
          frame [.rings, .slots, .outbounds, .bus] s t
            ∧ t.outbound n = { s.outbound n with fetch := .waitRecord, assembly := [], waiting := none }
            ∧ (t.slot (.completion n)).reserved = (s.slot (.completion n)).reserved
            ∧ (t.ring (.completion n)).producer = (s.ring (.completion n)).producer + 1
            ∧ ∃ more, t.bus = s.bus ++ taken
                :: .entry ((s.ring (.completion n)).slotAddress (s.ring (.completion n)).producer)
                  (recordOf (sentBytes
                    ⟨n, (chain.head?.map (·.index)).getD 0, chain.length, f.cookie, 0, .badChain, none⟩)) :: more)
        ∧ (freeSlots (.completion n) s = 0 →
          frame [.rings, .slots, .outbounds, .bus] s t ∧ otherRings (.send n) s t ∧ t.bus = s.bus ++ [taken]
            ∧ t.outbound n = { s.outbound n with
                fetch := .slotWait, assembly := [], waiting := some ⟨chain, verdict⟩ }
            ∧ t.slot (.completion n)
                = { s.slot (.completion n) with waiting := (s.slot (.completion n)).waiting ++ [.outbound] }))

/-- The arbiter (R122, R123): on a line in RUN with no packet in transmission, the present requester that comes first after the
last winner is granted, with nothing sent and its reads issued from the grant (R126, R128). H puts the held chain in
transmission, to be read record by record, and leaves none held, so that the engine may take the next; Si puts the head of store
i there, to be read from its first byte not stripped, and makes its forward leg ACTIVE. With no requester present, off RUN, or
with a packet in transmission, nothing is granted. Who is present is given by value (R122): H with a VALID chain in HOLDING and
no cancel, Si with its head decided, the forward leg PENDING toward the line and hold off; and so is when the outbound engine
takes a record (R118). -/
def Obligations.TheArbiterGrantsInCyclicOrder : Prop :=
  ∀ (d : LineId) (s : State),
    (present d s .host = true ↔
      ∃ c, (s.outbound d).held = some c ∧ c.verdict = .valid ∧ (s.outbound d).fetch = .holding ∧ (s.outbound d).cancel = none)
    ∧ (∀ i, present d s (.store i) = true ↔
      ∃ e q, (s.store i).index.head? = some e ∧ e.disposition = some q ∧ e.forward = .pending ∧ q.destination = d
        ∧ (s.head i).hold = false)
    ∧ (let ready := (s.outbound d).fetch = .waitRecord ∧ (s.outbound d).held = none ∧ (s.outbound d).cancel = none
          ∧ (s.port d).configured = true ∧ 1 ≤ (s.ring (.send d)).count;
        (ready → frame [.outbounds, .bus] s (fetchSend d s) ∧ otherOutbounds d s (fetchSend d s)
            ∧ (fetchSend d s).outbound d = { s.outbound d with fetch := .fetch }
            ∧ (fetchSend d s).bus = s.bus ++ [.read ((s.ring (.send d)).slotAddress (s.ring (.send d)).consumer) 32])
          ∧ (¬ ready → fetchSend d s = s))
    ∧ ((s.port d).state ≠ .run ∨ (s.outbound d).transmission ≠ .none ∨ (∀ w, present d s w = false) → arbitrate d s = s)
    ∧ ∀ w, (s.port d).state = .run → (s.outbound d).transmission = .none → present d s w = true →
      (∀ v, turnsBefore (s.outbound d).lastWinner v < turnsBefore (s.outbound d).lastWinner w → present d s v = false) →
      (w = .host → ∃ c u, (s.outbound d).held = some c ∧ arbitrate d s = fetchSend d (issueReads d u)
        ∧ frame [.outbounds] s u ∧ otherOutbounds d s u
        ∧ u.outbound d = { s.outbound d with
            fetch := .waitRecord, held := none, lastWinner := .host, transmission := .host c, bytesSent := 0,
            failure := .none, staging := ⟨[], [], c.records.map (fun r => ⟨r.address.toNat, r.length.toNat⟩)⟩ })
      ∧ ∀ i, w = .store i → ∃ e rest q k u, (s.store i).index = e :: rest ∧ e.disposition = some q ∧ q.destination = d
        ∧ k = (if q.strip = true ∧ e.tag ≠ none then 1 else 0) ∧ arbitrate d s = issueReads d u
        ∧ frame [.outbounds, .stores] s u ∧ otherOutbounds d s u ∧ otherStores i s u
        ∧ u.outbound d = { s.outbound d with
            lastWinner := .store i, transmission := .forward i e.sequence q.strip, bytesSent := 0, failure := .none,
            staging := ⟨[], [], [⟨e.offset + k, e.stored - k⟩]⟩ }
        ∧ u.store i = { s.store i with index := { e with forward := .active } :: rest }

/-- The reads of a packet in transmission (R126, R128): new reads follow those in flight in packet order, each of 1 to 512 bytes
within one run (a record's bytes, or a forward's), and together with what is still to be read they make up what was to be read
before. At most 4096 bytes are held or on their way, and reading stops only when nothing is left or the next read would go
beyond that. A host chain's reads go out on the bus in order. That an address past the top of the host's 64 bits goes on at 0 is
the model's (log entry 32). -/
def Obligations.PacketReadsAreIssuedAhead : Prop :=
  ∀ (n : LineId) (s : State),
    let g := (s.outbound n).staging
    let t := issueReads n s
    let places : List (Nat × Nat) → List Nat := fun runs => runs.flatMap (fun r => (List.range r.2).map (r.1 + ·))
    ∃ (issued : List StagedRead) (todo : List Segment),
      frame [.outbounds, .bus] s t ∧ otherOutbounds n s t
        ∧ t.outbound n = { s.outbound n with staging := ⟨g.bytes, g.reads ++ issued, todo⟩ }
        ∧ (∀ r ∈ issued, 1 ≤ r.length ∧ r.length ≤ 512 ∧ r.data = none
          ∧ ∃ seg ∈ g.todo, seg.start ≤ r.start ∧ r.start + r.length ≤ seg.start + seg.length)
        ∧ places (issued.map (fun r => (r.start, r.length))) ++ places (todo.map (fun x => (x.start, x.length)))
          = places (g.todo.map (fun x => (x.start, x.length)))
        ∧ (issued = [] ∨ (g.bytes.length + ((g.reads ++ issued).map (·.length)).sum ≤ 4096))
        ∧ (todo = [] ∨ ∃ seg rest, todo = seg :: rest ∧ 0 < seg.length
          ∧ 4096 < g.bytes.length + ((g.reads ++ issued).map (·.length)).sum + min 512 seg.length)
        ∧ (∀ c, (s.outbound n).transmission = .host c →
          t.bus = s.bus ++ issued.map (fun r => .read (BitVec.ofNat 64 r.start) r.length))
        ∧ ((∀ c, (s.outbound n).transmission ≠ .host c) → t.bus = s.bus)

/-- HOST_DATA_READ_DONE and FORWARD_DATA_READ_DONE (R126, R128, R131, R132). Bytes go to the transmitter in packet order,
whatever order the host returns them in: the oldest read, with those behind it that have returned, joins the bytes at hand, and
a younger one waits; then further reads are issued. A failed host read empties the staging buffer and is taken. An uncorrectable
word met by a forward does too, and posts STORE_FAULT with the region offset of the word's first byte (log entry 29). That a
forward's reads return oldest first, judged against the words as they stand then, is the model's (log entry 17). -/
def Obligations.PacketReadsAreStagedInOrder : Prop :=
  (∀ (n : LineId) (c : Chain) (g : Staging) (s : State), s.part.state = .running → (s.outbound n).transmission = .host c →
    (s.outbound n).staging = g →
    (∀ r done rest d, g.reads = r :: (done ++ rest) → r.data = none → (∀ x ∈ done, x.data ≠ none) →
      (∀ x, rest.head? = some x → x.data = none) → d.length = r.length →
      ∃ u, exec (.hostDataReadDone n 0 (some d)) s = .next (issueReads n u) ∧ frame [.outbounds] s u ∧ otherOutbounds n s u
        ∧ u.outbound n = { s.outbound n with
            staging := ⟨g.bytes ++ d ++ (done.map (fun x => x.data.getD [])).flatten, rest, g.todo⟩ })
    ∧ (∀ x front r rest d, g.reads = x :: (front ++ r :: rest) → x.data = none → r.data = none → d.length = r.length →
      ∃ u, exec (.hostDataReadDone n (front.length + 1) (some d)) s = .next (issueReads n u) ∧ frame [.outbounds] s u
        ∧ otherOutbounds n s u
        ∧ u.outbound n = { s.outbound n with
            staging := ⟨g.bytes, x :: (front ++ { r with data := some d } :: rest), g.todo⟩ })
    ∧ (∀ k r, g.reads[k]? = some r → r.data = none →
      ∃ t, exec (.hostDataReadDone n k none) s = .next t ∧ frame [.outbounds] s t ∧ otherOutbounds n s t
        ∧ t.outbound n = { s.outbound n with failure := .hostReadError, staging := ⟨[], [], []⟩ }))
  ∧ ∀ (n i : LineId) (q : BitVec 16) (b : Bool) (e : IndexEntry) (r : StagedRead) (rest : List StagedRead) (s : State),
    s.part.state = .running → (s.outbound n).transmission = .forward i q b → headEntry i s = some e →
    (s.outbound n).staging.reads = r :: rest →
    ((∀ k, k < r.length → s.ddr.bad ((s.store i).address (r.start + k)) = false) →
      ∃ u, exec (.forwardDataReadDone n) s = .next (issueReads n u) ∧ frame [.outbounds] s u ∧ otherOutbounds n s u
        ∧ u.outbound n = { s.outbound n with
            staging := ⟨(s.outbound n).staging.bytes
              ++ (List.range r.length).map (fun k => cellRead s.ddr.cells ((s.store i).address (r.start + k))), rest,
              (s.outbound n).staging.todo⟩ })
    ∧ (∀ k, k < r.length → s.ddr.bad ((s.store i).address (r.start + k)) = true →
      (∀ j, j < k → s.ddr.bad ((s.store i).address (r.start + j)) = false) →
      ∃ t offset, exec (.forwardDataReadDone n) s = .next t ∧ frame (.outbounds :: noticeBlocks) s t ∧ otherOutbounds n s t
        ∧ t.outbound n = { s.outbound n with failure := .storeFault, staging := ⟨[], [], []⟩ }
        ∧ offset = (r.start + k) % (s.store i).size - (r.start + k) % (s.store i).size % 8
        ∧ noticed [.storeFault i n e.sequence e.tag (BitVec.ofNat 16 (s.outbound n).bytesSent)
            (BitVec.ofNat 32 offset)] s t)

/-- DDR_WORD_CORRUPTED (R44): in any part state, the 8 bytes of the word fault from now on, every other byte as before, and
nothing else in the part changes. -/
def Obligations.CorruptionMarksOneWord : Prop :=
  ∀ (w : BitVec 27) (s : State), ∃ t, exec (.ddrWordCorrupted w) s = .next t ∧ frame [.memory] s t
    ∧ ∀ a, cellRead t.ddr.cells a = cellRead s.ddr.cells a ∧ t.ddr.bad a = (s.ddr.bad a || decide (a / 8 = w.toNat))

/-! ## What every step keeps -/

/-- Every step keeps the canonical form of the DDR memory: bytes by rising address, none of them 0, and nothing beyond 1 GiB
(R43). -/
def Obligations.EveryStepKeepsTheMemoryCanonical : Prop :=
  ∀ s t : State, s.ddr.wf = true → step s = .next t → t.ddr.wf = true

/-- Laws 1 to 3 (R27, R37, R45) are kept by every step: outstanding and allowance within 1024 and 0 out of RUN; under LOSSLESS
outstanding, with the offer it may take, within the free bytes and the free entries; the index within 2048 entries, with none
OPEN but the youngest; and the occupied bytes the sum of the stored lengths, within the region. -/
def Obligations.EveryStepKeepsTheStoreAndCreditLaws : Prop :=
  ∀ s t : State, storeCreditLaw s → step s = .next t → storeCreditLaw t

/-- Laws 7 and 8 (R171, R164) are kept by every step, with what holds them up: the entries and reservations of every
part-written ring fit it, and every slot an engine or the command unit holds is reserved (R97, R100, R120, R178); no
host-written ring holds more than its size, and a reader that reads a record, or waits for its slot, has one; a delivery engine
out of IDLE works for its line's head; and before RUNNING nothing is taken up. -/
def Obligations.EveryStepKeepsTheRingLaws : Prop :=
  ∀ s t : State, ringLaws s → step s = .next t → ringLaws t

/-- Every step keeps the pending-notice set in the order of R176 with one notice for each key (R175). -/
def Obligations.EveryStepKeepsTheNoticesInOrder : Prop :=
  ∀ s t : State, heldInOrder s.held → step s = .next t → heldInOrder t.held

/-- Every step keeps the regions of the configured lines within what R64 allows, and apart from each other. -/
def Obligations.EveryStepKeepsTheRegionsApart : Prop :=
  ∀ s t : State, regionLaw s → step s = .next t → regionLaw t

/-- Every step keeps the lines in OFF outside RUNNING (R24). -/
def Obligations.EveryStepKeepsLinesOffOutsideRunning : Prop :=
  ∀ s t : State, offUnlessRunning s → step s = .next t → offUnlessRunning t

/-- Every step keeps dispositions and legs at the head (R46, R74): no entry behind the head has one, and no OPEN entry has a
disposition. -/
def Obligations.EveryStepDecidesOnlyTheHead : Prop :=
  ∀ s t : State, onlyHeadDecided s → step s = .next t → onlyHeadDecided t

/-- Every step leaves every head settled (R74, R76, R78, R82): a COMPLETE entry that a retirement leaves at the front, or that closes
there, is decided in the same step, one with no live leg has retired, and an offered delivery leg has been taken up. A head decided in
a step has the disposition of the rule DROP and of the table, and one decided before keeps its own (law 9). That one step carries
each head on until nothing more comes about at once is the model's (log entry 28). -/
def Obligations.EveryStepSettlesTheHeads : Prop :=
  (∀ s t : State, headsSettled s → step s = .next t → headsSettled t)
  ∧ (∀ s t : State, onlyHeadDecided s → step s = .next t → ∀ n e d, headEntry n t = some e → e.disposition = some d →
      (∃ e0, headEntry n s = some e0 ∧ e0.sequence = e.sequence ∧ e0.disposition = some d) ∨ d = disposed (t.head n) e)
  ∧ ∀ s t : State, onlyHeadDecided s → step s = .next t → ∀ n e0 rest d e, (s.store n).index = e0 :: rest →
    e0.disposition = some d → headEntry n t = some e → e.sequence = e0.sequence →
    (∀ x ∈ rest, x.sequence ≠ e0.sequence) → (s.store n).sequence ≠ e0.sequence → e.disposition = some d

/-- Law 10 (R142): the epoch changes only at a mark accepted from the source line, an internal advance, TIME_SET, or a part
reset. -/
def Obligations.TheEpochChangesAtFourEventsOnly : Prop :=
  ∀ (c : Instr) (s t : State), wellFormed c = true → exec c s = .next t → t.time.epoch ≠ s.time.epoch →
    (∃ n v, c = .rxRunChar n (dataCharacter v) ∧ s.time.source = .line n ∧ (s.port n).state = .run
        ∧ (s.port n).markPending = true ∧ t.time.epoch = v)
      ∨ (c = .periodTimerExpiry ∧ s.time.source = .internal ∧ t.time.epoch = s.time.epoch + 1)
      ∨ (c = .timeSet ∧ ∃ e, currentOf .timeSet s = some e ∧ t.time.epoch = recordByte e 4)
      ∨ ((c = .powerOn ∨ ∃ w, c = .reset w) ∧ t.time.epoch = 0)

/-- The state after power-on has the laws that every step keeps. -/
def Obligations.TheResetStateIsGood : Prop :=
  State.reset.ddr.wf = true ∧ storeCreditLaw State.reset ∧ offUnlessRunning State.reset ∧ onlyHeadDecided State.reset
    ∧ headsSettled State.reset ∧ ringLaws State.reset ∧ heldInOrder State.reset.held ∧ regionLaw State.reset
end

