-- ==== Sys2Proof/Laws/State.lean ====
section
/-! SUPPORT. The small lemmas of the state: what reading one block gives after changing one, true by unfolding, so that no later
proof unfolds a record update. -/

namespace Sys2Proof.Machine

@[simp] theorem perLine_get_upd_same {α : Type} (p : PerLine α) (n : LineId) (f : α → α) :
    (p.upd n f).get n = f (p.get n) := by cases n <;> rfl

theorem perLine_get_upd_ne {α : Type} (p : PerLine α) {n m : LineId} (h : m ≠ n) (f : α → α) :
    (p.upd n f).get m = p.get m := by cases n <;> cases m <;> first | rfl | exact absurd rfl h

theorem perLine_get_upd {α : Type} (p : PerLine α) (n m : LineId) (f : α → α) :
    (p.upd n f).get m = if m = n then f (p.get m) else p.get m := by cases n <;> cases m <;> rfl

@[simp] theorem perLine_get_all {α : Type} (a : α) (n : LineId) : (PerLine.all a).get n = a := by cases n <;> rfl

theorem perLine_ext {α : Type} {p q : PerLine α} (h : ∀ n, p.get n = q.get n) : p = q := by
  have h0 := h .l0
  have h1 := h .l1
  have h2 := h .l2
  have h3 := h .l3
  cases p
  cases q
  simp_all [PerLine.get]

theorem ringTable_get_upd (t : RingTable) (r q : RingId) (f : Ring → Ring) :
    (t.upd r f).get q = if q = r then f (t.get q) else t.get q := by
  cases r <;> cases q <;> simp [RingTable.upd, RingTable.get, perLine_get_upd]

theorem slotTable_get_upd (t : SlotTable) (r q : PartRing) (f : Slots → Slots) :
    (t.upd r f).get q = if q = r then f (t.get q) else t.get q := by
  cases r <;> cases q <;> simp [SlotTable.upd, SlotTable.get, perLine_get_upd]

/-! ### updPort -/

@[simp] theorem updPort_credits (n : LineId) (f : LinePort → LinePort) (s : State) : (updPort n f s).credits = s.credits := rfl
@[simp] theorem updPort_stores (n : LineId) (f : LinePort → LinePort) (s : State) : (updPort n f s).stores = s.stores := rfl
@[simp] theorem updPort_heads (n : LineId) (f : LinePort → LinePort) (s : State) : (updPort n f s).heads = s.heads := rfl
@[simp] theorem updPort_deliveries (n : LineId) (f : LinePort → LinePort) (s : State) : (updPort n f s).deliveries = s.deliveries := rfl
@[simp] theorem updPort_outbounds (n : LineId) (f : LinePort → LinePort) (s : State) : (updPort n f s).outbounds = s.outbounds := rfl
@[simp] theorem updPort_ddr (n : LineId) (f : LinePort → LinePort) (s : State) : (updPort n f s).ddr = s.ddr := rfl
@[simp] theorem updPort_time (n : LineId) (f : LinePort → LinePort) (s : State) : (updPort n f s).time = s.time := rfl
@[simp] theorem updPort_part (n : LineId) (f : LinePort → LinePort) (s : State) : (updPort n f s).part = s.part := rfl
@[simp] theorem updPort_rings (n : LineId) (f : LinePort → LinePort) (s : State) : (updPort n f s).rings = s.rings := rfl
@[simp] theorem updPort_slots (n : LineId) (f : LinePort → LinePort) (s : State) : (updPort n f s).slots = s.slots := rfl
@[simp] theorem updPort_held (n : LineId) (f : LinePort → LinePort) (s : State) : (updPort n f s).held = s.held := rfl
@[simp] theorem updPort_command (n : LineId) (f : LinePort → LinePort) (s : State) : (updPort n f s).command = s.command := rfl
@[simp] theorem updPort_bus (n : LineId) (f : LinePort → LinePort) (s : State) : (updPort n f s).bus = s.bus := rfl
@[simp] theorem updPort_wires (n : LineId) (f : LinePort → LinePort) (s : State) : (updPort n f s).wires = s.wires := rfl
@[simp] theorem updPort_pending (n : LineId) (f : LinePort → LinePort) (s : State) : (updPort n f s).pending = s.pending := rfl
@[simp] theorem updPort_credit (n : LineId) (f : LinePort → LinePort) (s : State) (m : LineId) : (updPort n f s).credit m = s.credit m := rfl
@[simp] theorem updPort_store (n : LineId) (f : LinePort → LinePort) (s : State) (m : LineId) : (updPort n f s).store m = s.store m := rfl
@[simp] theorem updPort_head (n : LineId) (f : LinePort → LinePort) (s : State) (m : LineId) : (updPort n f s).head m = s.head m := rfl
@[simp] theorem updPort_delivery (n : LineId) (f : LinePort → LinePort) (s : State) (m : LineId) : (updPort n f s).delivery m = s.delivery m := rfl
@[simp] theorem updPort_outbound (n : LineId) (f : LinePort → LinePort) (s : State) (m : LineId) : (updPort n f s).outbound m = s.outbound m := rfl
@[simp] theorem updPort_wire (n : LineId) (f : LinePort → LinePort) (s : State) (m : LineId) : (updPort n f s).wire m = s.wire m := rfl
@[simp] theorem updPort_ring (n : LineId) (f : LinePort → LinePort) (s : State) (q : RingId) : (updPort n f s).ring q = s.ring q := rfl
@[simp] theorem updPort_slot (n : LineId) (f : LinePort → LinePort) (s : State) (q : PartRing) : (updPort n f s).slot q = s.slot q := rfl
@[simp] theorem updPort_port_same (n : LineId) (f : LinePort → LinePort) (s : State) : (updPort n f s).port n = f (s.port n) := by
  simp [updPort, State.port]
theorem updPort_port (n : LineId) (f : LinePort → LinePort) (s : State) (m : LineId) :
    (updPort n f s).port m = if m = n then f (s.port m) else s.port m := by
  simp [updPort, State.port, perLine_get_upd]
theorem updPort_port_ne (n : LineId) (f : LinePort → LinePort) (s : State) {m : LineId} (h : m ≠ n) : (updPort n f s).port m = s.port m := by
  simp [updPort_port, h]

/-! ### updCredit -/

@[simp] theorem updCredit_ports (n : LineId) (f : Credit → Credit) (s : State) : (updCredit n f s).ports = s.ports := rfl
@[simp] theorem updCredit_stores (n : LineId) (f : Credit → Credit) (s : State) : (updCredit n f s).stores = s.stores := rfl
@[simp] theorem updCredit_heads (n : LineId) (f : Credit → Credit) (s : State) : (updCredit n f s).heads = s.heads := rfl
@[simp] theorem updCredit_deliveries (n : LineId) (f : Credit → Credit) (s : State) : (updCredit n f s).deliveries = s.deliveries := rfl
@[simp] theorem updCredit_outbounds (n : LineId) (f : Credit → Credit) (s : State) : (updCredit n f s).outbounds = s.outbounds := rfl
@[simp] theorem updCredit_ddr (n : LineId) (f : Credit → Credit) (s : State) : (updCredit n f s).ddr = s.ddr := rfl
@[simp] theorem updCredit_time (n : LineId) (f : Credit → Credit) (s : State) : (updCredit n f s).time = s.time := rfl
@[simp] theorem updCredit_part (n : LineId) (f : Credit → Credit) (s : State) : (updCredit n f s).part = s.part := rfl
@[simp] theorem updCredit_rings (n : LineId) (f : Credit → Credit) (s : State) : (updCredit n f s).rings = s.rings := rfl
@[simp] theorem updCredit_slots (n : LineId) (f : Credit → Credit) (s : State) : (updCredit n f s).slots = s.slots := rfl
@[simp] theorem updCredit_held (n : LineId) (f : Credit → Credit) (s : State) : (updCredit n f s).held = s.held := rfl
@[simp] theorem updCredit_command (n : LineId) (f : Credit → Credit) (s : State) : (updCredit n f s).command = s.command := rfl
@[simp] theorem updCredit_bus (n : LineId) (f : Credit → Credit) (s : State) : (updCredit n f s).bus = s.bus := rfl
@[simp] theorem updCredit_wires (n : LineId) (f : Credit → Credit) (s : State) : (updCredit n f s).wires = s.wires := rfl
@[simp] theorem updCredit_pending (n : LineId) (f : Credit → Credit) (s : State) : (updCredit n f s).pending = s.pending := rfl
@[simp] theorem updCredit_port (n : LineId) (f : Credit → Credit) (s : State) (m : LineId) : (updCredit n f s).port m = s.port m := rfl
@[simp] theorem updCredit_store (n : LineId) (f : Credit → Credit) (s : State) (m : LineId) : (updCredit n f s).store m = s.store m := rfl
@[simp] theorem updCredit_head (n : LineId) (f : Credit → Credit) (s : State) (m : LineId) : (updCredit n f s).head m = s.head m := rfl
@[simp] theorem updCredit_delivery (n : LineId) (f : Credit → Credit) (s : State) (m : LineId) : (updCredit n f s).delivery m = s.delivery m := rfl
@[simp] theorem updCredit_outbound (n : LineId) (f : Credit → Credit) (s : State) (m : LineId) : (updCredit n f s).outbound m = s.outbound m := rfl
@[simp] theorem updCredit_wire (n : LineId) (f : Credit → Credit) (s : State) (m : LineId) : (updCredit n f s).wire m = s.wire m := rfl
@[simp] theorem updCredit_ring (n : LineId) (f : Credit → Credit) (s : State) (q : RingId) : (updCredit n f s).ring q = s.ring q := rfl
@[simp] theorem updCredit_slot (n : LineId) (f : Credit → Credit) (s : State) (q : PartRing) : (updCredit n f s).slot q = s.slot q := rfl
@[simp] theorem updCredit_credit_same (n : LineId) (f : Credit → Credit) (s : State) : (updCredit n f s).credit n = f (s.credit n) := by
  simp [updCredit, State.credit]
theorem updCredit_credit (n : LineId) (f : Credit → Credit) (s : State) (m : LineId) :
    (updCredit n f s).credit m = if m = n then f (s.credit m) else s.credit m := by
  simp [updCredit, State.credit, perLine_get_upd]
theorem updCredit_credit_ne (n : LineId) (f : Credit → Credit) (s : State) {m : LineId} (h : m ≠ n) : (updCredit n f s).credit m = s.credit m := by
  simp [updCredit_credit, h]

/-! ### updStore -/

@[simp] theorem updStore_ports (n : LineId) (f : Store → Store) (s : State) : (updStore n f s).ports = s.ports := rfl
@[simp] theorem updStore_credits (n : LineId) (f : Store → Store) (s : State) : (updStore n f s).credits = s.credits := rfl
@[simp] theorem updStore_heads (n : LineId) (f : Store → Store) (s : State) : (updStore n f s).heads = s.heads := rfl
@[simp] theorem updStore_deliveries (n : LineId) (f : Store → Store) (s : State) : (updStore n f s).deliveries = s.deliveries := rfl
@[simp] theorem updStore_outbounds (n : LineId) (f : Store → Store) (s : State) : (updStore n f s).outbounds = s.outbounds := rfl
@[simp] theorem updStore_ddr (n : LineId) (f : Store → Store) (s : State) : (updStore n f s).ddr = s.ddr := rfl
@[simp] theorem updStore_time (n : LineId) (f : Store → Store) (s : State) : (updStore n f s).time = s.time := rfl
@[simp] theorem updStore_part (n : LineId) (f : Store → Store) (s : State) : (updStore n f s).part = s.part := rfl
@[simp] theorem updStore_rings (n : LineId) (f : Store → Store) (s : State) : (updStore n f s).rings = s.rings := rfl
@[simp] theorem updStore_slots (n : LineId) (f : Store → Store) (s : State) : (updStore n f s).slots = s.slots := rfl
@[simp] theorem updStore_held (n : LineId) (f : Store → Store) (s : State) : (updStore n f s).held = s.held := rfl
@[simp] theorem updStore_command (n : LineId) (f : Store → Store) (s : State) : (updStore n f s).command = s.command := rfl
@[simp] theorem updStore_bus (n : LineId) (f : Store → Store) (s : State) : (updStore n f s).bus = s.bus := rfl
@[simp] theorem updStore_wires (n : LineId) (f : Store → Store) (s : State) : (updStore n f s).wires = s.wires := rfl
@[simp] theorem updStore_pending (n : LineId) (f : Store → Store) (s : State) : (updStore n f s).pending = s.pending := rfl
@[simp] theorem updStore_port (n : LineId) (f : Store → Store) (s : State) (m : LineId) : (updStore n f s).port m = s.port m := rfl
@[simp] theorem updStore_credit (n : LineId) (f : Store → Store) (s : State) (m : LineId) : (updStore n f s).credit m = s.credit m := rfl
@[simp] theorem updStore_head (n : LineId) (f : Store → Store) (s : State) (m : LineId) : (updStore n f s).head m = s.head m := rfl
@[simp] theorem updStore_delivery (n : LineId) (f : Store → Store) (s : State) (m : LineId) : (updStore n f s).delivery m = s.delivery m := rfl
@[simp] theorem updStore_outbound (n : LineId) (f : Store → Store) (s : State) (m : LineId) : (updStore n f s).outbound m = s.outbound m := rfl
@[simp] theorem updStore_wire (n : LineId) (f : Store → Store) (s : State) (m : LineId) : (updStore n f s).wire m = s.wire m := rfl
@[simp] theorem updStore_ring (n : LineId) (f : Store → Store) (s : State) (q : RingId) : (updStore n f s).ring q = s.ring q := rfl
@[simp] theorem updStore_slot (n : LineId) (f : Store → Store) (s : State) (q : PartRing) : (updStore n f s).slot q = s.slot q := rfl
@[simp] theorem updStore_store_same (n : LineId) (f : Store → Store) (s : State) : (updStore n f s).store n = f (s.store n) := by
  simp [updStore, State.store]
theorem updStore_store (n : LineId) (f : Store → Store) (s : State) (m : LineId) :
    (updStore n f s).store m = if m = n then f (s.store m) else s.store m := by
  simp [updStore, State.store, perLine_get_upd]
theorem updStore_store_ne (n : LineId) (f : Store → Store) (s : State) {m : LineId} (h : m ≠ n) : (updStore n f s).store m = s.store m := by
  simp [updStore_store, h]

/-! ### updHead -/

@[simp] theorem updHead_ports (n : LineId) (f : HeadEngine → HeadEngine) (s : State) : (updHead n f s).ports = s.ports := rfl
@[simp] theorem updHead_credits (n : LineId) (f : HeadEngine → HeadEngine) (s : State) : (updHead n f s).credits = s.credits := rfl
@[simp] theorem updHead_stores (n : LineId) (f : HeadEngine → HeadEngine) (s : State) : (updHead n f s).stores = s.stores := rfl
@[simp] theorem updHead_deliveries (n : LineId) (f : HeadEngine → HeadEngine) (s : State) : (updHead n f s).deliveries = s.deliveries := rfl
@[simp] theorem updHead_outbounds (n : LineId) (f : HeadEngine → HeadEngine) (s : State) : (updHead n f s).outbounds = s.outbounds := rfl
@[simp] theorem updHead_ddr (n : LineId) (f : HeadEngine → HeadEngine) (s : State) : (updHead n f s).ddr = s.ddr := rfl
@[simp] theorem updHead_time (n : LineId) (f : HeadEngine → HeadEngine) (s : State) : (updHead n f s).time = s.time := rfl
@[simp] theorem updHead_part (n : LineId) (f : HeadEngine → HeadEngine) (s : State) : (updHead n f s).part = s.part := rfl
@[simp] theorem updHead_rings (n : LineId) (f : HeadEngine → HeadEngine) (s : State) : (updHead n f s).rings = s.rings := rfl
@[simp] theorem updHead_slots (n : LineId) (f : HeadEngine → HeadEngine) (s : State) : (updHead n f s).slots = s.slots := rfl
@[simp] theorem updHead_held (n : LineId) (f : HeadEngine → HeadEngine) (s : State) : (updHead n f s).held = s.held := rfl
@[simp] theorem updHead_command (n : LineId) (f : HeadEngine → HeadEngine) (s : State) : (updHead n f s).command = s.command := rfl
@[simp] theorem updHead_bus (n : LineId) (f : HeadEngine → HeadEngine) (s : State) : (updHead n f s).bus = s.bus := rfl
@[simp] theorem updHead_wires (n : LineId) (f : HeadEngine → HeadEngine) (s : State) : (updHead n f s).wires = s.wires := rfl
@[simp] theorem updHead_pending (n : LineId) (f : HeadEngine → HeadEngine) (s : State) : (updHead n f s).pending = s.pending := rfl
@[simp] theorem updHead_port (n : LineId) (f : HeadEngine → HeadEngine) (s : State) (m : LineId) : (updHead n f s).port m = s.port m := rfl
@[simp] theorem updHead_credit (n : LineId) (f : HeadEngine → HeadEngine) (s : State) (m : LineId) : (updHead n f s).credit m = s.credit m := rfl
@[simp] theorem updHead_store (n : LineId) (f : HeadEngine → HeadEngine) (s : State) (m : LineId) : (updHead n f s).store m = s.store m := rfl
@[simp] theorem updHead_delivery (n : LineId) (f : HeadEngine → HeadEngine) (s : State) (m : LineId) : (updHead n f s).delivery m = s.delivery m := rfl
@[simp] theorem updHead_outbound (n : LineId) (f : HeadEngine → HeadEngine) (s : State) (m : LineId) : (updHead n f s).outbound m = s.outbound m := rfl
@[simp] theorem updHead_wire (n : LineId) (f : HeadEngine → HeadEngine) (s : State) (m : LineId) : (updHead n f s).wire m = s.wire m := rfl
@[simp] theorem updHead_ring (n : LineId) (f : HeadEngine → HeadEngine) (s : State) (q : RingId) : (updHead n f s).ring q = s.ring q := rfl
@[simp] theorem updHead_slot (n : LineId) (f : HeadEngine → HeadEngine) (s : State) (q : PartRing) : (updHead n f s).slot q = s.slot q := rfl
@[simp] theorem updHead_head_same (n : LineId) (f : HeadEngine → HeadEngine) (s : State) : (updHead n f s).head n = f (s.head n) := by
  simp [updHead, State.head]
theorem updHead_head (n : LineId) (f : HeadEngine → HeadEngine) (s : State) (m : LineId) :
    (updHead n f s).head m = if m = n then f (s.head m) else s.head m := by
  simp [updHead, State.head, perLine_get_upd]
theorem updHead_head_ne (n : LineId) (f : HeadEngine → HeadEngine) (s : State) {m : LineId} (h : m ≠ n) : (updHead n f s).head m = s.head m := by
  simp [updHead_head, h]

/-! ### updDelivery -/

@[simp] theorem updDelivery_ports (n : LineId) (f : Delivery → Delivery) (s : State) : (updDelivery n f s).ports = s.ports := rfl
@[simp] theorem updDelivery_credits (n : LineId) (f : Delivery → Delivery) (s : State) : (updDelivery n f s).credits = s.credits := rfl
@[simp] theorem updDelivery_stores (n : LineId) (f : Delivery → Delivery) (s : State) : (updDelivery n f s).stores = s.stores := rfl
@[simp] theorem updDelivery_heads (n : LineId) (f : Delivery → Delivery) (s : State) : (updDelivery n f s).heads = s.heads := rfl
@[simp] theorem updDelivery_outbounds (n : LineId) (f : Delivery → Delivery) (s : State) : (updDelivery n f s).outbounds = s.outbounds := rfl
@[simp] theorem updDelivery_ddr (n : LineId) (f : Delivery → Delivery) (s : State) : (updDelivery n f s).ddr = s.ddr := rfl
@[simp] theorem updDelivery_time (n : LineId) (f : Delivery → Delivery) (s : State) : (updDelivery n f s).time = s.time := rfl
@[simp] theorem updDelivery_part (n : LineId) (f : Delivery → Delivery) (s : State) : (updDelivery n f s).part = s.part := rfl
@[simp] theorem updDelivery_rings (n : LineId) (f : Delivery → Delivery) (s : State) : (updDelivery n f s).rings = s.rings := rfl
@[simp] theorem updDelivery_slots (n : LineId) (f : Delivery → Delivery) (s : State) : (updDelivery n f s).slots = s.slots := rfl
@[simp] theorem updDelivery_held (n : LineId) (f : Delivery → Delivery) (s : State) : (updDelivery n f s).held = s.held := rfl
@[simp] theorem updDelivery_command (n : LineId) (f : Delivery → Delivery) (s : State) : (updDelivery n f s).command = s.command := rfl
@[simp] theorem updDelivery_bus (n : LineId) (f : Delivery → Delivery) (s : State) : (updDelivery n f s).bus = s.bus := rfl
@[simp] theorem updDelivery_wires (n : LineId) (f : Delivery → Delivery) (s : State) : (updDelivery n f s).wires = s.wires := rfl
@[simp] theorem updDelivery_pending (n : LineId) (f : Delivery → Delivery) (s : State) : (updDelivery n f s).pending = s.pending := rfl
@[simp] theorem updDelivery_port (n : LineId) (f : Delivery → Delivery) (s : State) (m : LineId) : (updDelivery n f s).port m = s.port m := rfl
@[simp] theorem updDelivery_credit (n : LineId) (f : Delivery → Delivery) (s : State) (m : LineId) : (updDelivery n f s).credit m = s.credit m := rfl
@[simp] theorem updDelivery_store (n : LineId) (f : Delivery → Delivery) (s : State) (m : LineId) : (updDelivery n f s).store m = s.store m := rfl
@[simp] theorem updDelivery_head (n : LineId) (f : Delivery → Delivery) (s : State) (m : LineId) : (updDelivery n f s).head m = s.head m := rfl
@[simp] theorem updDelivery_outbound (n : LineId) (f : Delivery → Delivery) (s : State) (m : LineId) : (updDelivery n f s).outbound m = s.outbound m := rfl
@[simp] theorem updDelivery_wire (n : LineId) (f : Delivery → Delivery) (s : State) (m : LineId) : (updDelivery n f s).wire m = s.wire m := rfl
@[simp] theorem updDelivery_ring (n : LineId) (f : Delivery → Delivery) (s : State) (q : RingId) : (updDelivery n f s).ring q = s.ring q := rfl
@[simp] theorem updDelivery_slot (n : LineId) (f : Delivery → Delivery) (s : State) (q : PartRing) : (updDelivery n f s).slot q = s.slot q := rfl
@[simp] theorem updDelivery_delivery_same (n : LineId) (f : Delivery → Delivery) (s : State) : (updDelivery n f s).delivery n = f (s.delivery n) := by
  simp [updDelivery, State.delivery]
theorem updDelivery_delivery (n : LineId) (f : Delivery → Delivery) (s : State) (m : LineId) :
    (updDelivery n f s).delivery m = if m = n then f (s.delivery m) else s.delivery m := by
  simp [updDelivery, State.delivery, perLine_get_upd]
theorem updDelivery_delivery_ne (n : LineId) (f : Delivery → Delivery) (s : State) {m : LineId} (h : m ≠ n) : (updDelivery n f s).delivery m = s.delivery m := by
  simp [updDelivery_delivery, h]

/-! ### updOutbound -/

@[simp] theorem updOutbound_ports (n : LineId) (f : Outbound → Outbound) (s : State) : (updOutbound n f s).ports = s.ports := rfl
@[simp] theorem updOutbound_credits (n : LineId) (f : Outbound → Outbound) (s : State) : (updOutbound n f s).credits = s.credits := rfl
@[simp] theorem updOutbound_stores (n : LineId) (f : Outbound → Outbound) (s : State) : (updOutbound n f s).stores = s.stores := rfl
@[simp] theorem updOutbound_heads (n : LineId) (f : Outbound → Outbound) (s : State) : (updOutbound n f s).heads = s.heads := rfl
@[simp] theorem updOutbound_deliveries (n : LineId) (f : Outbound → Outbound) (s : State) : (updOutbound n f s).deliveries = s.deliveries := rfl
@[simp] theorem updOutbound_ddr (n : LineId) (f : Outbound → Outbound) (s : State) : (updOutbound n f s).ddr = s.ddr := rfl
@[simp] theorem updOutbound_time (n : LineId) (f : Outbound → Outbound) (s : State) : (updOutbound n f s).time = s.time := rfl
@[simp] theorem updOutbound_part (n : LineId) (f : Outbound → Outbound) (s : State) : (updOutbound n f s).part = s.part := rfl
@[simp] theorem updOutbound_rings (n : LineId) (f : Outbound → Outbound) (s : State) : (updOutbound n f s).rings = s.rings := rfl
@[simp] theorem updOutbound_slots (n : LineId) (f : Outbound → Outbound) (s : State) : (updOutbound n f s).slots = s.slots := rfl
@[simp] theorem updOutbound_held (n : LineId) (f : Outbound → Outbound) (s : State) : (updOutbound n f s).held = s.held := rfl
@[simp] theorem updOutbound_command (n : LineId) (f : Outbound → Outbound) (s : State) : (updOutbound n f s).command = s.command := rfl
@[simp] theorem updOutbound_bus (n : LineId) (f : Outbound → Outbound) (s : State) : (updOutbound n f s).bus = s.bus := rfl
@[simp] theorem updOutbound_wires (n : LineId) (f : Outbound → Outbound) (s : State) : (updOutbound n f s).wires = s.wires := rfl
@[simp] theorem updOutbound_pending (n : LineId) (f : Outbound → Outbound) (s : State) : (updOutbound n f s).pending = s.pending := rfl
@[simp] theorem updOutbound_port (n : LineId) (f : Outbound → Outbound) (s : State) (m : LineId) : (updOutbound n f s).port m = s.port m := rfl
@[simp] theorem updOutbound_credit (n : LineId) (f : Outbound → Outbound) (s : State) (m : LineId) : (updOutbound n f s).credit m = s.credit m := rfl
@[simp] theorem updOutbound_store (n : LineId) (f : Outbound → Outbound) (s : State) (m : LineId) : (updOutbound n f s).store m = s.store m := rfl
@[simp] theorem updOutbound_head (n : LineId) (f : Outbound → Outbound) (s : State) (m : LineId) : (updOutbound n f s).head m = s.head m := rfl
@[simp] theorem updOutbound_delivery (n : LineId) (f : Outbound → Outbound) (s : State) (m : LineId) : (updOutbound n f s).delivery m = s.delivery m := rfl
@[simp] theorem updOutbound_wire (n : LineId) (f : Outbound → Outbound) (s : State) (m : LineId) : (updOutbound n f s).wire m = s.wire m := rfl
@[simp] theorem updOutbound_ring (n : LineId) (f : Outbound → Outbound) (s : State) (q : RingId) : (updOutbound n f s).ring q = s.ring q := rfl
@[simp] theorem updOutbound_slot (n : LineId) (f : Outbound → Outbound) (s : State) (q : PartRing) : (updOutbound n f s).slot q = s.slot q := rfl
@[simp] theorem updOutbound_outbound_same (n : LineId) (f : Outbound → Outbound) (s : State) : (updOutbound n f s).outbound n = f (s.outbound n) := by
  simp [updOutbound, State.outbound]
theorem updOutbound_outbound (n : LineId) (f : Outbound → Outbound) (s : State) (m : LineId) :
    (updOutbound n f s).outbound m = if m = n then f (s.outbound m) else s.outbound m := by
  simp [updOutbound, State.outbound, perLine_get_upd]
theorem updOutbound_outbound_ne (n : LineId) (f : Outbound → Outbound) (s : State) {m : LineId} (h : m ≠ n) : (updOutbound n f s).outbound m = s.outbound m := by
  simp [updOutbound_outbound, h]

/-! ### sendCharacter -/

@[simp] theorem sendCharacter_ports (n : LineId) (c : Character) (s : State) : (sendCharacter n c s).ports = s.ports := rfl
@[simp] theorem sendCharacter_credits (n : LineId) (c : Character) (s : State) : (sendCharacter n c s).credits = s.credits := rfl
@[simp] theorem sendCharacter_stores (n : LineId) (c : Character) (s : State) : (sendCharacter n c s).stores = s.stores := rfl
@[simp] theorem sendCharacter_heads (n : LineId) (c : Character) (s : State) : (sendCharacter n c s).heads = s.heads := rfl
@[simp] theorem sendCharacter_deliveries (n : LineId) (c : Character) (s : State) : (sendCharacter n c s).deliveries = s.deliveries := rfl
@[simp] theorem sendCharacter_outbounds (n : LineId) (c : Character) (s : State) : (sendCharacter n c s).outbounds = s.outbounds := rfl
@[simp] theorem sendCharacter_ddr (n : LineId) (c : Character) (s : State) : (sendCharacter n c s).ddr = s.ddr := rfl
@[simp] theorem sendCharacter_time (n : LineId) (c : Character) (s : State) : (sendCharacter n c s).time = s.time := rfl
@[simp] theorem sendCharacter_part (n : LineId) (c : Character) (s : State) : (sendCharacter n c s).part = s.part := rfl
@[simp] theorem sendCharacter_rings (n : LineId) (c : Character) (s : State) : (sendCharacter n c s).rings = s.rings := rfl
@[simp] theorem sendCharacter_slots (n : LineId) (c : Character) (s : State) : (sendCharacter n c s).slots = s.slots := rfl
@[simp] theorem sendCharacter_held (n : LineId) (c : Character) (s : State) : (sendCharacter n c s).held = s.held := rfl
@[simp] theorem sendCharacter_command (n : LineId) (c : Character) (s : State) : (sendCharacter n c s).command = s.command := rfl
@[simp] theorem sendCharacter_bus (n : LineId) (c : Character) (s : State) : (sendCharacter n c s).bus = s.bus := rfl
@[simp] theorem sendCharacter_pending (n : LineId) (c : Character) (s : State) : (sendCharacter n c s).pending = s.pending := rfl
@[simp] theorem sendCharacter_port (n : LineId) (c : Character) (s : State) (m : LineId) : (sendCharacter n c s).port m = s.port m := rfl
@[simp] theorem sendCharacter_credit (n : LineId) (c : Character) (s : State) (m : LineId) : (sendCharacter n c s).credit m = s.credit m := rfl
@[simp] theorem sendCharacter_store (n : LineId) (c : Character) (s : State) (m : LineId) : (sendCharacter n c s).store m = s.store m := rfl
@[simp] theorem sendCharacter_head (n : LineId) (c : Character) (s : State) (m : LineId) : (sendCharacter n c s).head m = s.head m := rfl
@[simp] theorem sendCharacter_delivery (n : LineId) (c : Character) (s : State) (m : LineId) : (sendCharacter n c s).delivery m = s.delivery m := rfl
@[simp] theorem sendCharacter_outbound (n : LineId) (c : Character) (s : State) (m : LineId) : (sendCharacter n c s).outbound m = s.outbound m := rfl
@[simp] theorem sendCharacter_ring (n : LineId) (c : Character) (s : State) (q : RingId) : (sendCharacter n c s).ring q = s.ring q := rfl
@[simp] theorem sendCharacter_slot (n : LineId) (c : Character) (s : State) (q : PartRing) : (sendCharacter n c s).slot q = s.slot q := rfl
theorem sendCharacter_wire (n : LineId) (c : Character) (s : State) (m : LineId) :
    (sendCharacter n c s).wire m = if m = n then s.wire m ++ [c] else s.wire m := by
  simp [sendCharacter, State.wire, perLine_get_upd]

/-! ### updTime -/

@[simp] theorem updTime_ports (f : TimeUnit → TimeUnit) (s : State) : (updTime f s).ports = s.ports := rfl
@[simp] theorem updTime_credits (f : TimeUnit → TimeUnit) (s : State) : (updTime f s).credits = s.credits := rfl
@[simp] theorem updTime_stores (f : TimeUnit → TimeUnit) (s : State) : (updTime f s).stores = s.stores := rfl
@[simp] theorem updTime_heads (f : TimeUnit → TimeUnit) (s : State) : (updTime f s).heads = s.heads := rfl
@[simp] theorem updTime_deliveries (f : TimeUnit → TimeUnit) (s : State) : (updTime f s).deliveries = s.deliveries := rfl
@[simp] theorem updTime_outbounds (f : TimeUnit → TimeUnit) (s : State) : (updTime f s).outbounds = s.outbounds := rfl
@[simp] theorem updTime_ddr (f : TimeUnit → TimeUnit) (s : State) : (updTime f s).ddr = s.ddr := rfl
@[simp] theorem updTime_part (f : TimeUnit → TimeUnit) (s : State) : (updTime f s).part = s.part := rfl
@[simp] theorem updTime_rings (f : TimeUnit → TimeUnit) (s : State) : (updTime f s).rings = s.rings := rfl
@[simp] theorem updTime_slots (f : TimeUnit → TimeUnit) (s : State) : (updTime f s).slots = s.slots := rfl
@[simp] theorem updTime_held (f : TimeUnit → TimeUnit) (s : State) : (updTime f s).held = s.held := rfl
@[simp] theorem updTime_command (f : TimeUnit → TimeUnit) (s : State) : (updTime f s).command = s.command := rfl
@[simp] theorem updTime_bus (f : TimeUnit → TimeUnit) (s : State) : (updTime f s).bus = s.bus := rfl
@[simp] theorem updTime_wires (f : TimeUnit → TimeUnit) (s : State) : (updTime f s).wires = s.wires := rfl
@[simp] theorem updTime_pending (f : TimeUnit → TimeUnit) (s : State) : (updTime f s).pending = s.pending := rfl
@[simp] theorem updTime_port (f : TimeUnit → TimeUnit) (s : State) (m : LineId) : (updTime f s).port m = s.port m := rfl
@[simp] theorem updTime_credit (f : TimeUnit → TimeUnit) (s : State) (m : LineId) : (updTime f s).credit m = s.credit m := rfl
@[simp] theorem updTime_store (f : TimeUnit → TimeUnit) (s : State) (m : LineId) : (updTime f s).store m = s.store m := rfl
@[simp] theorem updTime_head (f : TimeUnit → TimeUnit) (s : State) (m : LineId) : (updTime f s).head m = s.head m := rfl
@[simp] theorem updTime_delivery (f : TimeUnit → TimeUnit) (s : State) (m : LineId) : (updTime f s).delivery m = s.delivery m := rfl
@[simp] theorem updTime_outbound (f : TimeUnit → TimeUnit) (s : State) (m : LineId) : (updTime f s).outbound m = s.outbound m := rfl
@[simp] theorem updTime_wire (f : TimeUnit → TimeUnit) (s : State) (m : LineId) : (updTime f s).wire m = s.wire m := rfl
@[simp] theorem updTime_ring (f : TimeUnit → TimeUnit) (s : State) (q : RingId) : (updTime f s).ring q = s.ring q := rfl
@[simp] theorem updTime_slot (f : TimeUnit → TimeUnit) (s : State) (q : PartRing) : (updTime f s).slot q = s.slot q := rfl
@[simp] theorem updTime_time (f : TimeUnit → TimeUnit) (s : State) : (updTime f s).time = f s.time := rfl

/-! ### updPart -/

@[simp] theorem updPart_ports (f : PartUnit → PartUnit) (s : State) : (updPart f s).ports = s.ports := rfl
@[simp] theorem updPart_credits (f : PartUnit → PartUnit) (s : State) : (updPart f s).credits = s.credits := rfl
@[simp] theorem updPart_stores (f : PartUnit → PartUnit) (s : State) : (updPart f s).stores = s.stores := rfl
@[simp] theorem updPart_heads (f : PartUnit → PartUnit) (s : State) : (updPart f s).heads = s.heads := rfl
@[simp] theorem updPart_deliveries (f : PartUnit → PartUnit) (s : State) : (updPart f s).deliveries = s.deliveries := rfl
@[simp] theorem updPart_outbounds (f : PartUnit → PartUnit) (s : State) : (updPart f s).outbounds = s.outbounds := rfl
@[simp] theorem updPart_ddr (f : PartUnit → PartUnit) (s : State) : (updPart f s).ddr = s.ddr := rfl
@[simp] theorem updPart_time (f : PartUnit → PartUnit) (s : State) : (updPart f s).time = s.time := rfl
@[simp] theorem updPart_rings (f : PartUnit → PartUnit) (s : State) : (updPart f s).rings = s.rings := rfl
@[simp] theorem updPart_slots (f : PartUnit → PartUnit) (s : State) : (updPart f s).slots = s.slots := rfl
@[simp] theorem updPart_held (f : PartUnit → PartUnit) (s : State) : (updPart f s).held = s.held := rfl
@[simp] theorem updPart_command (f : PartUnit → PartUnit) (s : State) : (updPart f s).command = s.command := rfl
@[simp] theorem updPart_bus (f : PartUnit → PartUnit) (s : State) : (updPart f s).bus = s.bus := rfl
@[simp] theorem updPart_wires (f : PartUnit → PartUnit) (s : State) : (updPart f s).wires = s.wires := rfl
@[simp] theorem updPart_pending (f : PartUnit → PartUnit) (s : State) : (updPart f s).pending = s.pending := rfl
@[simp] theorem updPart_port (f : PartUnit → PartUnit) (s : State) (m : LineId) : (updPart f s).port m = s.port m := rfl
@[simp] theorem updPart_credit (f : PartUnit → PartUnit) (s : State) (m : LineId) : (updPart f s).credit m = s.credit m := rfl
@[simp] theorem updPart_store (f : PartUnit → PartUnit) (s : State) (m : LineId) : (updPart f s).store m = s.store m := rfl
@[simp] theorem updPart_head (f : PartUnit → PartUnit) (s : State) (m : LineId) : (updPart f s).head m = s.head m := rfl
@[simp] theorem updPart_delivery (f : PartUnit → PartUnit) (s : State) (m : LineId) : (updPart f s).delivery m = s.delivery m := rfl
@[simp] theorem updPart_outbound (f : PartUnit → PartUnit) (s : State) (m : LineId) : (updPart f s).outbound m = s.outbound m := rfl
@[simp] theorem updPart_wire (f : PartUnit → PartUnit) (s : State) (m : LineId) : (updPart f s).wire m = s.wire m := rfl
@[simp] theorem updPart_ring (f : PartUnit → PartUnit) (s : State) (q : RingId) : (updPart f s).ring q = s.ring q := rfl
@[simp] theorem updPart_slot (f : PartUnit → PartUnit) (s : State) (q : PartRing) : (updPart f s).slot q = s.slot q := rfl
@[simp] theorem updPart_part (f : PartUnit → PartUnit) (s : State) : (updPart f s).part = f s.part := rfl

/-! ### updCommand -/

@[simp] theorem updCommand_ports (f : CommandUnit → CommandUnit) (s : State) : (updCommand f s).ports = s.ports := rfl
@[simp] theorem updCommand_credits (f : CommandUnit → CommandUnit) (s : State) : (updCommand f s).credits = s.credits := rfl
@[simp] theorem updCommand_stores (f : CommandUnit → CommandUnit) (s : State) : (updCommand f s).stores = s.stores := rfl
@[simp] theorem updCommand_heads (f : CommandUnit → CommandUnit) (s : State) : (updCommand f s).heads = s.heads := rfl
@[simp] theorem updCommand_deliveries (f : CommandUnit → CommandUnit) (s : State) : (updCommand f s).deliveries = s.deliveries := rfl
@[simp] theorem updCommand_outbounds (f : CommandUnit → CommandUnit) (s : State) : (updCommand f s).outbounds = s.outbounds := rfl
@[simp] theorem updCommand_ddr (f : CommandUnit → CommandUnit) (s : State) : (updCommand f s).ddr = s.ddr := rfl
@[simp] theorem updCommand_time (f : CommandUnit → CommandUnit) (s : State) : (updCommand f s).time = s.time := rfl
@[simp] theorem updCommand_part (f : CommandUnit → CommandUnit) (s : State) : (updCommand f s).part = s.part := rfl
@[simp] theorem updCommand_rings (f : CommandUnit → CommandUnit) (s : State) : (updCommand f s).rings = s.rings := rfl
@[simp] theorem updCommand_slots (f : CommandUnit → CommandUnit) (s : State) : (updCommand f s).slots = s.slots := rfl
@[simp] theorem updCommand_held (f : CommandUnit → CommandUnit) (s : State) : (updCommand f s).held = s.held := rfl
@[simp] theorem updCommand_bus (f : CommandUnit → CommandUnit) (s : State) : (updCommand f s).bus = s.bus := rfl
@[simp] theorem updCommand_wires (f : CommandUnit → CommandUnit) (s : State) : (updCommand f s).wires = s.wires := rfl
@[simp] theorem updCommand_pending (f : CommandUnit → CommandUnit) (s : State) : (updCommand f s).pending = s.pending := rfl
@[simp] theorem updCommand_port (f : CommandUnit → CommandUnit) (s : State) (m : LineId) : (updCommand f s).port m = s.port m := rfl
@[simp] theorem updCommand_credit (f : CommandUnit → CommandUnit) (s : State) (m : LineId) : (updCommand f s).credit m = s.credit m := rfl
@[simp] theorem updCommand_store (f : CommandUnit → CommandUnit) (s : State) (m : LineId) : (updCommand f s).store m = s.store m := rfl
@[simp] theorem updCommand_head (f : CommandUnit → CommandUnit) (s : State) (m : LineId) : (updCommand f s).head m = s.head m := rfl
@[simp] theorem updCommand_delivery (f : CommandUnit → CommandUnit) (s : State) (m : LineId) : (updCommand f s).delivery m = s.delivery m := rfl
@[simp] theorem updCommand_outbound (f : CommandUnit → CommandUnit) (s : State) (m : LineId) : (updCommand f s).outbound m = s.outbound m := rfl
@[simp] theorem updCommand_wire (f : CommandUnit → CommandUnit) (s : State) (m : LineId) : (updCommand f s).wire m = s.wire m := rfl
@[simp] theorem updCommand_ring (f : CommandUnit → CommandUnit) (s : State) (q : RingId) : (updCommand f s).ring q = s.ring q := rfl
@[simp] theorem updCommand_slot (f : CommandUnit → CommandUnit) (s : State) (q : PartRing) : (updCommand f s).slot q = s.slot q := rfl
@[simp] theorem updCommand_command (f : CommandUnit → CommandUnit) (s : State) : (updCommand f s).command = f s.command := rfl

/-! ### updDdr -/

@[simp] theorem updDdr_ports (f : Ddr → Ddr) (s : State) : (updDdr f s).ports = s.ports := rfl
@[simp] theorem updDdr_credits (f : Ddr → Ddr) (s : State) : (updDdr f s).credits = s.credits := rfl
@[simp] theorem updDdr_stores (f : Ddr → Ddr) (s : State) : (updDdr f s).stores = s.stores := rfl
@[simp] theorem updDdr_heads (f : Ddr → Ddr) (s : State) : (updDdr f s).heads = s.heads := rfl
@[simp] theorem updDdr_deliveries (f : Ddr → Ddr) (s : State) : (updDdr f s).deliveries = s.deliveries := rfl
@[simp] theorem updDdr_outbounds (f : Ddr → Ddr) (s : State) : (updDdr f s).outbounds = s.outbounds := rfl
@[simp] theorem updDdr_time (f : Ddr → Ddr) (s : State) : (updDdr f s).time = s.time := rfl
@[simp] theorem updDdr_part (f : Ddr → Ddr) (s : State) : (updDdr f s).part = s.part := rfl
@[simp] theorem updDdr_rings (f : Ddr → Ddr) (s : State) : (updDdr f s).rings = s.rings := rfl
@[simp] theorem updDdr_slots (f : Ddr → Ddr) (s : State) : (updDdr f s).slots = s.slots := rfl
@[simp] theorem updDdr_held (f : Ddr → Ddr) (s : State) : (updDdr f s).held = s.held := rfl
@[simp] theorem updDdr_command (f : Ddr → Ddr) (s : State) : (updDdr f s).command = s.command := rfl
@[simp] theorem updDdr_bus (f : Ddr → Ddr) (s : State) : (updDdr f s).bus = s.bus := rfl
@[simp] theorem updDdr_wires (f : Ddr → Ddr) (s : State) : (updDdr f s).wires = s.wires := rfl
@[simp] theorem updDdr_pending (f : Ddr → Ddr) (s : State) : (updDdr f s).pending = s.pending := rfl
@[simp] theorem updDdr_port (f : Ddr → Ddr) (s : State) (m : LineId) : (updDdr f s).port m = s.port m := rfl
@[simp] theorem updDdr_credit (f : Ddr → Ddr) (s : State) (m : LineId) : (updDdr f s).credit m = s.credit m := rfl
@[simp] theorem updDdr_store (f : Ddr → Ddr) (s : State) (m : LineId) : (updDdr f s).store m = s.store m := rfl
@[simp] theorem updDdr_head (f : Ddr → Ddr) (s : State) (m : LineId) : (updDdr f s).head m = s.head m := rfl
@[simp] theorem updDdr_delivery (f : Ddr → Ddr) (s : State) (m : LineId) : (updDdr f s).delivery m = s.delivery m := rfl
@[simp] theorem updDdr_outbound (f : Ddr → Ddr) (s : State) (m : LineId) : (updDdr f s).outbound m = s.outbound m := rfl
@[simp] theorem updDdr_wire (f : Ddr → Ddr) (s : State) (m : LineId) : (updDdr f s).wire m = s.wire m := rfl
@[simp] theorem updDdr_ring (f : Ddr → Ddr) (s : State) (q : RingId) : (updDdr f s).ring q = s.ring q := rfl
@[simp] theorem updDdr_slot (f : Ddr → Ddr) (s : State) (q : PartRing) : (updDdr f s).slot q = s.slot q := rfl
@[simp] theorem updDdr_ddr (f : Ddr → Ddr) (s : State) : (updDdr f s).ddr = f s.ddr := rfl

/-! ### issue -/

@[simp] theorem issue_ports (op : HostOp) (s : State) : (issue op s).ports = s.ports := rfl
@[simp] theorem issue_credits (op : HostOp) (s : State) : (issue op s).credits = s.credits := rfl
@[simp] theorem issue_stores (op : HostOp) (s : State) : (issue op s).stores = s.stores := rfl
@[simp] theorem issue_heads (op : HostOp) (s : State) : (issue op s).heads = s.heads := rfl
@[simp] theorem issue_deliveries (op : HostOp) (s : State) : (issue op s).deliveries = s.deliveries := rfl
@[simp] theorem issue_outbounds (op : HostOp) (s : State) : (issue op s).outbounds = s.outbounds := rfl
@[simp] theorem issue_ddr (op : HostOp) (s : State) : (issue op s).ddr = s.ddr := rfl
@[simp] theorem issue_time (op : HostOp) (s : State) : (issue op s).time = s.time := rfl
@[simp] theorem issue_part (op : HostOp) (s : State) : (issue op s).part = s.part := rfl
@[simp] theorem issue_rings (op : HostOp) (s : State) : (issue op s).rings = s.rings := rfl
@[simp] theorem issue_slots (op : HostOp) (s : State) : (issue op s).slots = s.slots := rfl
@[simp] theorem issue_held (op : HostOp) (s : State) : (issue op s).held = s.held := rfl
@[simp] theorem issue_command (op : HostOp) (s : State) : (issue op s).command = s.command := rfl
@[simp] theorem issue_wires (op : HostOp) (s : State) : (issue op s).wires = s.wires := rfl
@[simp] theorem issue_pending (op : HostOp) (s : State) : (issue op s).pending = s.pending := rfl
@[simp] theorem issue_port (op : HostOp) (s : State) (m : LineId) : (issue op s).port m = s.port m := rfl
@[simp] theorem issue_credit (op : HostOp) (s : State) (m : LineId) : (issue op s).credit m = s.credit m := rfl
@[simp] theorem issue_store (op : HostOp) (s : State) (m : LineId) : (issue op s).store m = s.store m := rfl
@[simp] theorem issue_head (op : HostOp) (s : State) (m : LineId) : (issue op s).head m = s.head m := rfl
@[simp] theorem issue_delivery (op : HostOp) (s : State) (m : LineId) : (issue op s).delivery m = s.delivery m := rfl
@[simp] theorem issue_outbound (op : HostOp) (s : State) (m : LineId) : (issue op s).outbound m = s.outbound m := rfl
@[simp] theorem issue_wire (op : HostOp) (s : State) (m : LineId) : (issue op s).wire m = s.wire m := rfl
@[simp] theorem issue_ring (op : HostOp) (s : State) (q : RingId) : (issue op s).ring q = s.ring q := rfl
@[simp] theorem issue_slot (op : HostOp) (s : State) (q : PartRing) : (issue op s).slot q = s.slot q := rfl
@[simp] theorem issue_bus (op : HostOp) (s : State) : (issue op s).bus = s.bus ++ [op] := rfl

/-! ### issueAll -/

@[simp] theorem issueAll_ports (ops : List HostOp) (s : State) : (issueAll ops s).ports = s.ports := rfl
@[simp] theorem issueAll_credits (ops : List HostOp) (s : State) : (issueAll ops s).credits = s.credits := rfl
@[simp] theorem issueAll_stores (ops : List HostOp) (s : State) : (issueAll ops s).stores = s.stores := rfl
@[simp] theorem issueAll_heads (ops : List HostOp) (s : State) : (issueAll ops s).heads = s.heads := rfl
@[simp] theorem issueAll_deliveries (ops : List HostOp) (s : State) : (issueAll ops s).deliveries = s.deliveries := rfl
@[simp] theorem issueAll_outbounds (ops : List HostOp) (s : State) : (issueAll ops s).outbounds = s.outbounds := rfl
@[simp] theorem issueAll_ddr (ops : List HostOp) (s : State) : (issueAll ops s).ddr = s.ddr := rfl
@[simp] theorem issueAll_time (ops : List HostOp) (s : State) : (issueAll ops s).time = s.time := rfl
@[simp] theorem issueAll_part (ops : List HostOp) (s : State) : (issueAll ops s).part = s.part := rfl
@[simp] theorem issueAll_rings (ops : List HostOp) (s : State) : (issueAll ops s).rings = s.rings := rfl
@[simp] theorem issueAll_slots (ops : List HostOp) (s : State) : (issueAll ops s).slots = s.slots := rfl
@[simp] theorem issueAll_held (ops : List HostOp) (s : State) : (issueAll ops s).held = s.held := rfl
@[simp] theorem issueAll_command (ops : List HostOp) (s : State) : (issueAll ops s).command = s.command := rfl
@[simp] theorem issueAll_wires (ops : List HostOp) (s : State) : (issueAll ops s).wires = s.wires := rfl
@[simp] theorem issueAll_pending (ops : List HostOp) (s : State) : (issueAll ops s).pending = s.pending := rfl
@[simp] theorem issueAll_port (ops : List HostOp) (s : State) (m : LineId) : (issueAll ops s).port m = s.port m := rfl
@[simp] theorem issueAll_credit (ops : List HostOp) (s : State) (m : LineId) : (issueAll ops s).credit m = s.credit m := rfl
@[simp] theorem issueAll_store (ops : List HostOp) (s : State) (m : LineId) : (issueAll ops s).store m = s.store m := rfl
@[simp] theorem issueAll_head (ops : List HostOp) (s : State) (m : LineId) : (issueAll ops s).head m = s.head m := rfl
@[simp] theorem issueAll_delivery (ops : List HostOp) (s : State) (m : LineId) : (issueAll ops s).delivery m = s.delivery m := rfl
@[simp] theorem issueAll_outbound (ops : List HostOp) (s : State) (m : LineId) : (issueAll ops s).outbound m = s.outbound m := rfl
@[simp] theorem issueAll_wire (ops : List HostOp) (s : State) (m : LineId) : (issueAll ops s).wire m = s.wire m := rfl
@[simp] theorem issueAll_ring (ops : List HostOp) (s : State) (q : RingId) : (issueAll ops s).ring q = s.ring q := rfl
@[simp] theorem issueAll_slot (ops : List HostOp) (s : State) (q : PartRing) : (issueAll ops s).slot q = s.slot q := rfl
@[simp] theorem issueAll_bus (ops : List HostOp) (s : State) : (issueAll ops s).bus = s.bus ++ ops := rfl

/-! ### setHeld -/

@[simp] theorem setHeld_ports (held : List HeldNotice) (s : State) : (setHeld held s).ports = s.ports := rfl
@[simp] theorem setHeld_credits (held : List HeldNotice) (s : State) : (setHeld held s).credits = s.credits := rfl
@[simp] theorem setHeld_stores (held : List HeldNotice) (s : State) : (setHeld held s).stores = s.stores := rfl
@[simp] theorem setHeld_heads (held : List HeldNotice) (s : State) : (setHeld held s).heads = s.heads := rfl
@[simp] theorem setHeld_deliveries (held : List HeldNotice) (s : State) : (setHeld held s).deliveries = s.deliveries := rfl
@[simp] theorem setHeld_outbounds (held : List HeldNotice) (s : State) : (setHeld held s).outbounds = s.outbounds := rfl
@[simp] theorem setHeld_ddr (held : List HeldNotice) (s : State) : (setHeld held s).ddr = s.ddr := rfl
@[simp] theorem setHeld_time (held : List HeldNotice) (s : State) : (setHeld held s).time = s.time := rfl
@[simp] theorem setHeld_part (held : List HeldNotice) (s : State) : (setHeld held s).part = s.part := rfl
@[simp] theorem setHeld_rings (held : List HeldNotice) (s : State) : (setHeld held s).rings = s.rings := rfl
@[simp] theorem setHeld_slots (held : List HeldNotice) (s : State) : (setHeld held s).slots = s.slots := rfl
@[simp] theorem setHeld_command (held : List HeldNotice) (s : State) : (setHeld held s).command = s.command := rfl
@[simp] theorem setHeld_bus (held : List HeldNotice) (s : State) : (setHeld held s).bus = s.bus := rfl
@[simp] theorem setHeld_wires (held : List HeldNotice) (s : State) : (setHeld held s).wires = s.wires := rfl
@[simp] theorem setHeld_pending (held : List HeldNotice) (s : State) : (setHeld held s).pending = s.pending := rfl
@[simp] theorem setHeld_port (held : List HeldNotice) (s : State) (m : LineId) : (setHeld held s).port m = s.port m := rfl
@[simp] theorem setHeld_credit (held : List HeldNotice) (s : State) (m : LineId) : (setHeld held s).credit m = s.credit m := rfl
@[simp] theorem setHeld_store (held : List HeldNotice) (s : State) (m : LineId) : (setHeld held s).store m = s.store m := rfl
@[simp] theorem setHeld_head (held : List HeldNotice) (s : State) (m : LineId) : (setHeld held s).head m = s.head m := rfl
@[simp] theorem setHeld_delivery (held : List HeldNotice) (s : State) (m : LineId) : (setHeld held s).delivery m = s.delivery m := rfl
@[simp] theorem setHeld_outbound (held : List HeldNotice) (s : State) (m : LineId) : (setHeld held s).outbound m = s.outbound m := rfl
@[simp] theorem setHeld_wire (held : List HeldNotice) (s : State) (m : LineId) : (setHeld held s).wire m = s.wire m := rfl
@[simp] theorem setHeld_ring (held : List HeldNotice) (s : State) (q : RingId) : (setHeld held s).ring q = s.ring q := rfl
@[simp] theorem setHeld_slot (held : List HeldNotice) (s : State) (q : PartRing) : (setHeld held s).slot q = s.slot q := rfl
@[simp] theorem setHeld_held (held : List HeldNotice) (s : State) : (setHeld held s).held = held := rfl

/-! ### updRing -/

@[simp] theorem updRing_ports (r : RingId) (f : Ring → Ring) (s : State) : (updRing r f s).ports = s.ports := rfl
@[simp] theorem updRing_credits (r : RingId) (f : Ring → Ring) (s : State) : (updRing r f s).credits = s.credits := rfl
@[simp] theorem updRing_stores (r : RingId) (f : Ring → Ring) (s : State) : (updRing r f s).stores = s.stores := rfl
@[simp] theorem updRing_heads (r : RingId) (f : Ring → Ring) (s : State) : (updRing r f s).heads = s.heads := rfl
@[simp] theorem updRing_deliveries (r : RingId) (f : Ring → Ring) (s : State) : (updRing r f s).deliveries = s.deliveries := rfl
@[simp] theorem updRing_outbounds (r : RingId) (f : Ring → Ring) (s : State) : (updRing r f s).outbounds = s.outbounds := rfl
@[simp] theorem updRing_ddr (r : RingId) (f : Ring → Ring) (s : State) : (updRing r f s).ddr = s.ddr := rfl
@[simp] theorem updRing_time (r : RingId) (f : Ring → Ring) (s : State) : (updRing r f s).time = s.time := rfl
@[simp] theorem updRing_part (r : RingId) (f : Ring → Ring) (s : State) : (updRing r f s).part = s.part := rfl
@[simp] theorem updRing_slots (r : RingId) (f : Ring → Ring) (s : State) : (updRing r f s).slots = s.slots := rfl
@[simp] theorem updRing_held (r : RingId) (f : Ring → Ring) (s : State) : (updRing r f s).held = s.held := rfl
@[simp] theorem updRing_command (r : RingId) (f : Ring → Ring) (s : State) : (updRing r f s).command = s.command := rfl
@[simp] theorem updRing_bus (r : RingId) (f : Ring → Ring) (s : State) : (updRing r f s).bus = s.bus := rfl
@[simp] theorem updRing_wires (r : RingId) (f : Ring → Ring) (s : State) : (updRing r f s).wires = s.wires := rfl
@[simp] theorem updRing_pending (r : RingId) (f : Ring → Ring) (s : State) : (updRing r f s).pending = s.pending := rfl
@[simp] theorem updRing_port (r : RingId) (f : Ring → Ring) (s : State) (m : LineId) : (updRing r f s).port m = s.port m := rfl
@[simp] theorem updRing_credit (r : RingId) (f : Ring → Ring) (s : State) (m : LineId) : (updRing r f s).credit m = s.credit m := rfl
@[simp] theorem updRing_store (r : RingId) (f : Ring → Ring) (s : State) (m : LineId) : (updRing r f s).store m = s.store m := rfl
@[simp] theorem updRing_head (r : RingId) (f : Ring → Ring) (s : State) (m : LineId) : (updRing r f s).head m = s.head m := rfl
@[simp] theorem updRing_delivery (r : RingId) (f : Ring → Ring) (s : State) (m : LineId) : (updRing r f s).delivery m = s.delivery m := rfl
@[simp] theorem updRing_outbound (r : RingId) (f : Ring → Ring) (s : State) (m : LineId) : (updRing r f s).outbound m = s.outbound m := rfl
@[simp] theorem updRing_wire (r : RingId) (f : Ring → Ring) (s : State) (m : LineId) : (updRing r f s).wire m = s.wire m := rfl
@[simp] theorem updRing_slot (r : RingId) (f : Ring → Ring) (s : State) (q : PartRing) : (updRing r f s).slot q = s.slot q := rfl
theorem updRing_ring (r : RingId) (f : Ring → Ring) (s : State) (q : RingId) :
    (updRing r f s).ring q = if q = r then f (s.ring q) else s.ring q := by
  simp [updRing, State.ring, ringTable_get_upd]
@[simp] theorem updRing_ring_same (r : RingId) (f : Ring → Ring) (s : State) : (updRing r f s).ring r = f (s.ring r) := by
  simp [updRing_ring]

/-! ### updSlots -/

@[simp] theorem updSlots_ports (r : PartRing) (f : Slots → Slots) (s : State) : (updSlots r f s).ports = s.ports := rfl
@[simp] theorem updSlots_credits (r : PartRing) (f : Slots → Slots) (s : State) : (updSlots r f s).credits = s.credits := rfl
@[simp] theorem updSlots_stores (r : PartRing) (f : Slots → Slots) (s : State) : (updSlots r f s).stores = s.stores := rfl
@[simp] theorem updSlots_heads (r : PartRing) (f : Slots → Slots) (s : State) : (updSlots r f s).heads = s.heads := rfl
@[simp] theorem updSlots_deliveries (r : PartRing) (f : Slots → Slots) (s : State) : (updSlots r f s).deliveries = s.deliveries := rfl
@[simp] theorem updSlots_outbounds (r : PartRing) (f : Slots → Slots) (s : State) : (updSlots r f s).outbounds = s.outbounds := rfl
@[simp] theorem updSlots_ddr (r : PartRing) (f : Slots → Slots) (s : State) : (updSlots r f s).ddr = s.ddr := rfl
@[simp] theorem updSlots_time (r : PartRing) (f : Slots → Slots) (s : State) : (updSlots r f s).time = s.time := rfl
@[simp] theorem updSlots_part (r : PartRing) (f : Slots → Slots) (s : State) : (updSlots r f s).part = s.part := rfl
@[simp] theorem updSlots_rings (r : PartRing) (f : Slots → Slots) (s : State) : (updSlots r f s).rings = s.rings := rfl
@[simp] theorem updSlots_held (r : PartRing) (f : Slots → Slots) (s : State) : (updSlots r f s).held = s.held := rfl
@[simp] theorem updSlots_command (r : PartRing) (f : Slots → Slots) (s : State) : (updSlots r f s).command = s.command := rfl
@[simp] theorem updSlots_bus (r : PartRing) (f : Slots → Slots) (s : State) : (updSlots r f s).bus = s.bus := rfl
@[simp] theorem updSlots_wires (r : PartRing) (f : Slots → Slots) (s : State) : (updSlots r f s).wires = s.wires := rfl
@[simp] theorem updSlots_pending (r : PartRing) (f : Slots → Slots) (s : State) : (updSlots r f s).pending = s.pending := rfl
@[simp] theorem updSlots_port (r : PartRing) (f : Slots → Slots) (s : State) (m : LineId) : (updSlots r f s).port m = s.port m := rfl
@[simp] theorem updSlots_credit (r : PartRing) (f : Slots → Slots) (s : State) (m : LineId) : (updSlots r f s).credit m = s.credit m := rfl
@[simp] theorem updSlots_store (r : PartRing) (f : Slots → Slots) (s : State) (m : LineId) : (updSlots r f s).store m = s.store m := rfl
@[simp] theorem updSlots_head (r : PartRing) (f : Slots → Slots) (s : State) (m : LineId) : (updSlots r f s).head m = s.head m := rfl
@[simp] theorem updSlots_delivery (r : PartRing) (f : Slots → Slots) (s : State) (m : LineId) : (updSlots r f s).delivery m = s.delivery m := rfl
@[simp] theorem updSlots_outbound (r : PartRing) (f : Slots → Slots) (s : State) (m : LineId) : (updSlots r f s).outbound m = s.outbound m := rfl
@[simp] theorem updSlots_wire (r : PartRing) (f : Slots → Slots) (s : State) (m : LineId) : (updSlots r f s).wire m = s.wire m := rfl
@[simp] theorem updSlots_ring (r : PartRing) (f : Slots → Slots) (s : State) (q : RingId) : (updSlots r f s).ring q = s.ring q := rfl
theorem updSlots_slot (r : PartRing) (f : Slots → Slots) (s : State) (q : PartRing) :
    (updSlots r f s).slot q = if q = r then f (s.slot q) else s.slot q := by
  simp [updSlots, State.slot, slotTable_get_upd]
@[simp] theorem updSlots_slot_same (r : PartRing) (f : Slots → Slots) (s : State) : (updSlots r f s).slot r = f (s.slot r) := by
  simp [updSlots_slot]

/-! ### whenRunning -/

theorem whenRunning_running {s t : State} (h : s.part.state = .running) : whenRunning s t = t := by simp [whenRunning, h]

theorem whenRunning_not {s t : State} (h : s.part.state ≠ .running) : whenRunning s t = s := by simp [whenRunning, h]

theorem whenRunning_cases (s t : State) : whenRunning s t = t ∨ whenRunning s t = s := by
  unfold whenRunning
  split <;> simp

end Sys2Proof.Machine
end

