-- ==== Sys2Proof/Laws/Frames.lean ====
section
/-! SUPPORT. The frame of every shared operation: what it leaves unchanged, said once (simp takes each part as a rule). -/

namespace Sys2Proof.Machine

@[simp] theorem writeProgress_frame (r : RingId) (s : State) :
    (writeProgress r s).ports = s.ports ∧ (writeProgress r s).credits = s.credits ∧
      (writeProgress r s).stores = s.stores ∧ (writeProgress r s).heads = s.heads ∧
      (writeProgress r s).deliveries = s.deliveries ∧ (writeProgress r s).outbounds = s.outbounds ∧
      (writeProgress r s).ddr = s.ddr ∧ (writeProgress r s).time = s.time ∧ (writeProgress r s).part = s.part ∧
      (writeProgress r s).rings = s.rings ∧ (writeProgress r s).slots = s.slots ∧
      (writeProgress r s).held = s.held ∧ (writeProgress r s).command = s.command ∧
      (writeProgress r s).wires = s.wires ∧ (writeProgress r s).pending = s.pending ∧
      (∀ m, (writeProgress r s).port m = s.port m) ∧ (∀ m, (writeProgress r s).credit m = s.credit m) ∧
      (∀ m, (writeProgress r s).store m = s.store m) ∧ (∀ m, (writeProgress r s).head m = s.head m) ∧
      (∀ m, (writeProgress r s).delivery m = s.delivery m) ∧
      (∀ m, (writeProgress r s).outbound m = s.outbound m) ∧ (∀ m, (writeProgress r s).wire m = s.wire m) ∧
      (∀ x, (writeProgress r s).ring x = s.ring x) ∧ (∀ x, (writeProgress r s).slot x = s.slot x) := by
  simp [writeProgress]

@[simp] theorem takeRecord_frame (r : RingId) (s : State) :
    (takeRecord r s).ports = s.ports ∧ (takeRecord r s).credits = s.credits ∧
      (takeRecord r s).stores = s.stores ∧ (takeRecord r s).heads = s.heads ∧
      (takeRecord r s).deliveries = s.deliveries ∧ (takeRecord r s).outbounds = s.outbounds ∧
      (takeRecord r s).ddr = s.ddr ∧ (takeRecord r s).time = s.time ∧ (takeRecord r s).part = s.part ∧
      (takeRecord r s).slots = s.slots ∧ (takeRecord r s).held = s.held ∧
      (takeRecord r s).command = s.command ∧ (takeRecord r s).wires = s.wires ∧
      (takeRecord r s).pending = s.pending ∧ (∀ m, (takeRecord r s).port m = s.port m) ∧
      (∀ m, (takeRecord r s).credit m = s.credit m) ∧ (∀ m, (takeRecord r s).store m = s.store m) ∧
      (∀ m, (takeRecord r s).head m = s.head m) ∧ (∀ m, (takeRecord r s).delivery m = s.delivery m) ∧
      (∀ m, (takeRecord r s).outbound m = s.outbound m) ∧ (∀ m, (takeRecord r s).wire m = s.wire m) ∧
      (∀ x, (takeRecord r s).slot x = s.slot x) := by
  simp [takeRecord]

@[simp] theorem readRecord_frame (r : RingId) (s : State) :
    (readRecord r s).ports = s.ports ∧ (readRecord r s).credits = s.credits ∧
      (readRecord r s).stores = s.stores ∧ (readRecord r s).heads = s.heads ∧
      (readRecord r s).deliveries = s.deliveries ∧ (readRecord r s).outbounds = s.outbounds ∧
      (readRecord r s).ddr = s.ddr ∧ (readRecord r s).time = s.time ∧ (readRecord r s).part = s.part ∧
      (readRecord r s).rings = s.rings ∧ (readRecord r s).slots = s.slots ∧ (readRecord r s).held = s.held ∧
      (readRecord r s).command = s.command ∧ (readRecord r s).wires = s.wires ∧
      (readRecord r s).pending = s.pending ∧ (∀ m, (readRecord r s).port m = s.port m) ∧
      (∀ m, (readRecord r s).credit m = s.credit m) ∧ (∀ m, (readRecord r s).store m = s.store m) ∧
      (∀ m, (readRecord r s).head m = s.head m) ∧ (∀ m, (readRecord r s).delivery m = s.delivery m) ∧
      (∀ m, (readRecord r s).outbound m = s.outbound m) ∧ (∀ m, (readRecord r s).wire m = s.wire m) ∧
      (∀ x, (readRecord r s).ring x = s.ring x) ∧ (∀ x, (readRecord r s).slot x = s.slot x) := by
  simp [readRecord]

@[simp] theorem reserveSlot_frame (r : PartRing) (s : State) :
    (reserveSlot r s).ports = s.ports ∧ (reserveSlot r s).credits = s.credits ∧
      (reserveSlot r s).stores = s.stores ∧ (reserveSlot r s).heads = s.heads ∧
      (reserveSlot r s).deliveries = s.deliveries ∧ (reserveSlot r s).outbounds = s.outbounds ∧
      (reserveSlot r s).ddr = s.ddr ∧ (reserveSlot r s).time = s.time ∧ (reserveSlot r s).part = s.part ∧
      (reserveSlot r s).rings = s.rings ∧ (reserveSlot r s).held = s.held ∧
      (reserveSlot r s).command = s.command ∧ (reserveSlot r s).bus = s.bus ∧
      (reserveSlot r s).wires = s.wires ∧ (reserveSlot r s).pending = s.pending ∧
      (∀ m, (reserveSlot r s).port m = s.port m) ∧ (∀ m, (reserveSlot r s).credit m = s.credit m) ∧
      (∀ m, (reserveSlot r s).store m = s.store m) ∧ (∀ m, (reserveSlot r s).head m = s.head m) ∧
      (∀ m, (reserveSlot r s).delivery m = s.delivery m) ∧ (∀ m, (reserveSlot r s).outbound m = s.outbound m) ∧
      (∀ m, (reserveSlot r s).wire m = s.wire m) ∧ (∀ x, (reserveSlot r s).ring x = s.ring x) := by
  simp [reserveSlot]

@[simp] theorem dropReservation_frame (r : PartRing) (s : State) :
    (dropReservation r s).ports = s.ports ∧ (dropReservation r s).credits = s.credits ∧
      (dropReservation r s).stores = s.stores ∧ (dropReservation r s).heads = s.heads ∧
      (dropReservation r s).deliveries = s.deliveries ∧ (dropReservation r s).outbounds = s.outbounds ∧
      (dropReservation r s).ddr = s.ddr ∧ (dropReservation r s).time = s.time ∧
      (dropReservation r s).part = s.part ∧ (dropReservation r s).rings = s.rings ∧
      (dropReservation r s).held = s.held ∧ (dropReservation r s).command = s.command ∧
      (dropReservation r s).bus = s.bus ∧ (dropReservation r s).wires = s.wires ∧
      (dropReservation r s).pending = s.pending ∧ (∀ m, (dropReservation r s).port m = s.port m) ∧
      (∀ m, (dropReservation r s).credit m = s.credit m) ∧ (∀ m, (dropReservation r s).store m = s.store m) ∧
      (∀ m, (dropReservation r s).head m = s.head m) ∧ (∀ m, (dropReservation r s).delivery m = s.delivery m) ∧
      (∀ m, (dropReservation r s).outbound m = s.outbound m) ∧ (∀ m, (dropReservation r s).wire m = s.wire m) ∧
      (∀ x, (dropReservation r s).ring x = s.ring x) := by
  simp [dropReservation]

@[simp] theorem lodgeRequest_frame (r : PartRing) (q : Requester) (s : State) :
    (lodgeRequest r q s).ports = s.ports ∧ (lodgeRequest r q s).credits = s.credits ∧
      (lodgeRequest r q s).stores = s.stores ∧ (lodgeRequest r q s).heads = s.heads ∧
      (lodgeRequest r q s).deliveries = s.deliveries ∧ (lodgeRequest r q s).outbounds = s.outbounds ∧
      (lodgeRequest r q s).ddr = s.ddr ∧ (lodgeRequest r q s).time = s.time ∧
      (lodgeRequest r q s).part = s.part ∧ (lodgeRequest r q s).rings = s.rings ∧
      (lodgeRequest r q s).held = s.held ∧ (lodgeRequest r q s).command = s.command ∧
      (lodgeRequest r q s).bus = s.bus ∧ (lodgeRequest r q s).wires = s.wires ∧
      (lodgeRequest r q s).pending = s.pending ∧ (∀ m, (lodgeRequest r q s).port m = s.port m) ∧
      (∀ m, (lodgeRequest r q s).credit m = s.credit m) ∧ (∀ m, (lodgeRequest r q s).store m = s.store m) ∧
      (∀ m, (lodgeRequest r q s).head m = s.head m) ∧ (∀ m, (lodgeRequest r q s).delivery m = s.delivery m) ∧
      (∀ m, (lodgeRequest r q s).outbound m = s.outbound m) ∧ (∀ m, (lodgeRequest r q s).wire m = s.wire m) ∧
      (∀ x, (lodgeRequest r q s).ring x = s.ring x) := by
  simp [lodgeRequest]

@[simp] theorem withdrawRequest_frame (r : PartRing) (q : Requester) (s : State) :
    (withdrawRequest r q s).ports = s.ports ∧ (withdrawRequest r q s).credits = s.credits ∧
      (withdrawRequest r q s).stores = s.stores ∧ (withdrawRequest r q s).heads = s.heads ∧
      (withdrawRequest r q s).deliveries = s.deliveries ∧ (withdrawRequest r q s).outbounds = s.outbounds ∧
      (withdrawRequest r q s).ddr = s.ddr ∧ (withdrawRequest r q s).time = s.time ∧
      (withdrawRequest r q s).part = s.part ∧ (withdrawRequest r q s).rings = s.rings ∧
      (withdrawRequest r q s).held = s.held ∧ (withdrawRequest r q s).command = s.command ∧
      (withdrawRequest r q s).bus = s.bus ∧ (withdrawRequest r q s).wires = s.wires ∧
      (withdrawRequest r q s).pending = s.pending ∧ (∀ m, (withdrawRequest r q s).port m = s.port m) ∧
      (∀ m, (withdrawRequest r q s).credit m = s.credit m) ∧
      (∀ m, (withdrawRequest r q s).store m = s.store m) ∧ (∀ m, (withdrawRequest r q s).head m = s.head m) ∧
      (∀ m, (withdrawRequest r q s).delivery m = s.delivery m) ∧
      (∀ m, (withdrawRequest r q s).outbound m = s.outbound m) ∧
      (∀ m, (withdrawRequest r q s).wire m = s.wire m) ∧ (∀ x, (withdrawRequest r q s).ring x = s.ring x) := by
  simp [withdrawRequest]

@[simp] theorem sendVector_frame (r : PartRing) (s : State) :
    (sendVector r s).ports = s.ports ∧ (sendVector r s).credits = s.credits ∧
      (sendVector r s).stores = s.stores ∧ (sendVector r s).heads = s.heads ∧
      (sendVector r s).deliveries = s.deliveries ∧ (sendVector r s).outbounds = s.outbounds ∧
      (sendVector r s).ddr = s.ddr ∧ (sendVector r s).time = s.time ∧ (sendVector r s).part = s.part ∧
      (sendVector r s).rings = s.rings ∧ (sendVector r s).held = s.held ∧
      (sendVector r s).command = s.command ∧ (sendVector r s).wires = s.wires ∧
      (sendVector r s).pending = s.pending ∧ (∀ m, (sendVector r s).port m = s.port m) ∧
      (∀ m, (sendVector r s).credit m = s.credit m) ∧ (∀ m, (sendVector r s).store m = s.store m) ∧
      (∀ m, (sendVector r s).head m = s.head m) ∧ (∀ m, (sendVector r s).delivery m = s.delivery m) ∧
      (∀ m, (sendVector r s).outbound m = s.outbound m) ∧ (∀ m, (sendVector r s).wire m = s.wire m) ∧
      (∀ x, (sendVector r s).ring x = s.ring x) := by
  simp [sendVector]

@[simp] theorem writeEntry_frame (r : PartRing) (bytes : List Byte) (s : State) :
    (writeEntry r bytes s).ports = s.ports ∧ (writeEntry r bytes s).credits = s.credits ∧
      (writeEntry r bytes s).stores = s.stores ∧ (writeEntry r bytes s).heads = s.heads ∧
      (writeEntry r bytes s).deliveries = s.deliveries ∧ (writeEntry r bytes s).outbounds = s.outbounds ∧
      (writeEntry r bytes s).ddr = s.ddr ∧ (writeEntry r bytes s).time = s.time ∧
      (writeEntry r bytes s).part = s.part ∧ (writeEntry r bytes s).held = s.held ∧
      (writeEntry r bytes s).command = s.command ∧ (writeEntry r bytes s).wires = s.wires ∧
      (writeEntry r bytes s).pending = s.pending ∧ (∀ m, (writeEntry r bytes s).port m = s.port m) ∧
      (∀ m, (writeEntry r bytes s).credit m = s.credit m) ∧ (∀ m, (writeEntry r bytes s).store m = s.store m) ∧
      (∀ m, (writeEntry r bytes s).head m = s.head m) ∧
      (∀ m, (writeEntry r bytes s).delivery m = s.delivery m) ∧
      (∀ m, (writeEntry r bytes s).outbound m = s.outbound m) ∧ (∀ m, (writeEntry r bytes s).wire m = s.wire m) := by
  simp only [writeEntry]
  repeat' split
  all_goals simp

@[simp] theorem writeReserved_frame (r : PartRing) (bytes : List Byte) (s : State) :
    (writeReserved r bytes s).ports = s.ports ∧ (writeReserved r bytes s).credits = s.credits ∧
      (writeReserved r bytes s).stores = s.stores ∧ (writeReserved r bytes s).heads = s.heads ∧
      (writeReserved r bytes s).deliveries = s.deliveries ∧ (writeReserved r bytes s).outbounds = s.outbounds ∧
      (writeReserved r bytes s).ddr = s.ddr ∧ (writeReserved r bytes s).time = s.time ∧
      (writeReserved r bytes s).part = s.part ∧ (writeReserved r bytes s).held = s.held ∧
      (writeReserved r bytes s).command = s.command ∧ (writeReserved r bytes s).wires = s.wires ∧
      (writeReserved r bytes s).pending = s.pending ∧ (∀ m, (writeReserved r bytes s).port m = s.port m) ∧
      (∀ m, (writeReserved r bytes s).credit m = s.credit m) ∧
      (∀ m, (writeReserved r bytes s).store m = s.store m) ∧
      (∀ m, (writeReserved r bytes s).head m = s.head m) ∧
      (∀ m, (writeReserved r bytes s).delivery m = s.delivery m) ∧
      (∀ m, (writeReserved r bytes s).outbound m = s.outbound m) ∧
      (∀ m, (writeReserved r bytes s).wire m = s.wire m) := by
  simp [writeReserved]

@[simp] theorem postNotice_frame (nt : Notice) (s : State) :
    (postNotice nt s).ports = s.ports ∧ (postNotice nt s).credits = s.credits ∧
      (postNotice nt s).stores = s.stores ∧ (postNotice nt s).heads = s.heads ∧
      (postNotice nt s).deliveries = s.deliveries ∧ (postNotice nt s).outbounds = s.outbounds ∧
      (postNotice nt s).ddr = s.ddr ∧ (postNotice nt s).time = s.time ∧ (postNotice nt s).part = s.part ∧
      (postNotice nt s).command = s.command ∧ (postNotice nt s).wires = s.wires ∧
      (postNotice nt s).pending = s.pending ∧ (∀ m, (postNotice nt s).port m = s.port m) ∧
      (∀ m, (postNotice nt s).credit m = s.credit m) ∧ (∀ m, (postNotice nt s).store m = s.store m) ∧
      (∀ m, (postNotice nt s).head m = s.head m) ∧ (∀ m, (postNotice nt s).delivery m = s.delivery m) ∧
      (∀ m, (postNotice nt s).outbound m = s.outbound m) ∧ (∀ m, (postNotice nt s).wire m = s.wire m) := by
  simp only [postNotice]
  repeat' split
  all_goals simp

@[simp] theorem fetchCommand_frame (s : State) :
    (fetchCommand s).ports = s.ports ∧ (fetchCommand s).credits = s.credits ∧
      (fetchCommand s).stores = s.stores ∧ (fetchCommand s).heads = s.heads ∧
      (fetchCommand s).deliveries = s.deliveries ∧ (fetchCommand s).outbounds = s.outbounds ∧
      (fetchCommand s).ddr = s.ddr ∧ (fetchCommand s).time = s.time ∧ (fetchCommand s).part = s.part ∧
      (fetchCommand s).rings = s.rings ∧ (fetchCommand s).held = s.held ∧ (fetchCommand s).wires = s.wires ∧
      (fetchCommand s).pending = s.pending ∧ (∀ m, (fetchCommand s).port m = s.port m) ∧
      (∀ m, (fetchCommand s).credit m = s.credit m) ∧ (∀ m, (fetchCommand s).store m = s.store m) ∧
      (∀ m, (fetchCommand s).head m = s.head m) ∧ (∀ m, (fetchCommand s).delivery m = s.delivery m) ∧
      (∀ m, (fetchCommand s).outbound m = s.outbound m) ∧ (∀ m, (fetchCommand s).wire m = s.wire m) ∧
      (∀ x, (fetchCommand s).ring x = s.ring x) := by
  simp [fetchCommand]

@[simp] theorem pollCommand_frame (s : State) :
    (pollCommand s).ports = s.ports ∧ (pollCommand s).credits = s.credits ∧ (pollCommand s).stores = s.stores ∧
      (pollCommand s).heads = s.heads ∧ (pollCommand s).deliveries = s.deliveries ∧
      (pollCommand s).outbounds = s.outbounds ∧ (pollCommand s).ddr = s.ddr ∧ (pollCommand s).time = s.time ∧
      (pollCommand s).part = s.part ∧ (pollCommand s).rings = s.rings ∧ (pollCommand s).held = s.held ∧
      (pollCommand s).wires = s.wires ∧ (pollCommand s).pending = s.pending ∧
      (∀ m, (pollCommand s).port m = s.port m) ∧ (∀ m, (pollCommand s).credit m = s.credit m) ∧
      (∀ m, (pollCommand s).store m = s.store m) ∧ (∀ m, (pollCommand s).head m = s.head m) ∧
      (∀ m, (pollCommand s).delivery m = s.delivery m) ∧ (∀ m, (pollCommand s).outbound m = s.outbound m) ∧
      (∀ m, (pollCommand s).wire m = s.wire m) ∧ (∀ x, (pollCommand s).ring x = s.ring x) := by
  simp only [pollCommand]
  repeat' split
  all_goals simp

@[simp] theorem endCommand_frame (status : CommandStatus) (result : List Byte) (s : State) :
    (endCommand status result s).ports = s.ports ∧ (endCommand status result s).credits = s.credits ∧
      (endCommand status result s).stores = s.stores ∧ (endCommand status result s).heads = s.heads ∧
      (endCommand status result s).deliveries = s.deliveries ∧
      (endCommand status result s).outbounds = s.outbounds ∧ (endCommand status result s).ddr = s.ddr ∧
      (endCommand status result s).time = s.time ∧ (endCommand status result s).part = s.part ∧
      (endCommand status result s).held = s.held ∧ (endCommand status result s).wires = s.wires ∧
      (endCommand status result s).pending = s.pending ∧
      (∀ m, (endCommand status result s).port m = s.port m) ∧
      (∀ m, (endCommand status result s).credit m = s.credit m) ∧
      (∀ m, (endCommand status result s).store m = s.store m) ∧
      (∀ m, (endCommand status result s).head m = s.head m) ∧
      (∀ m, (endCommand status result s).delivery m = s.delivery m) ∧
      (∀ m, (endCommand status result s).outbound m = s.outbound m) ∧
      (∀ m, (endCommand status result s).wire m = s.wire m) := by
  simp only [endCommand]
  repeat' split
  all_goals simp

@[simp] theorem reckonOffer_frame (n : LineId) (s : State) :
    (reckonOffer n s).ports = s.ports ∧ (reckonOffer n s).stores = s.stores ∧
      (reckonOffer n s).heads = s.heads ∧ (reckonOffer n s).deliveries = s.deliveries ∧
      (reckonOffer n s).outbounds = s.outbounds ∧ (reckonOffer n s).ddr = s.ddr ∧
      (reckonOffer n s).time = s.time ∧ (reckonOffer n s).part = s.part ∧ (reckonOffer n s).rings = s.rings ∧
      (reckonOffer n s).slots = s.slots ∧ (reckonOffer n s).held = s.held ∧
      (reckonOffer n s).command = s.command ∧ (reckonOffer n s).bus = s.bus ∧
      (reckonOffer n s).wires = s.wires ∧ (reckonOffer n s).pending = s.pending ∧
      (∀ m, (reckonOffer n s).port m = s.port m) ∧ (∀ m, (reckonOffer n s).store m = s.store m) ∧
      (∀ m, (reckonOffer n s).head m = s.head m) ∧ (∀ m, (reckonOffer n s).delivery m = s.delivery m) ∧
      (∀ m, (reckonOffer n s).outbound m = s.outbound m) ∧ (∀ m, (reckonOffer n s).wire m = s.wire m) ∧
      (∀ x, (reckonOffer n s).ring x = s.ring x) ∧ (∀ x, (reckonOffer n s).slot x = s.slot x) := by
  simp [reckonOffer]

@[simp] theorem updHeadEntry_frame (n : LineId) (f : IndexEntry → IndexEntry) (s : State) :
    (updHeadEntry n f s).ports = s.ports ∧ (updHeadEntry n f s).credits = s.credits ∧
      (updHeadEntry n f s).heads = s.heads ∧ (updHeadEntry n f s).deliveries = s.deliveries ∧
      (updHeadEntry n f s).outbounds = s.outbounds ∧ (updHeadEntry n f s).ddr = s.ddr ∧
      (updHeadEntry n f s).time = s.time ∧ (updHeadEntry n f s).part = s.part ∧
      (updHeadEntry n f s).rings = s.rings ∧ (updHeadEntry n f s).slots = s.slots ∧
      (updHeadEntry n f s).held = s.held ∧ (updHeadEntry n f s).command = s.command ∧
      (updHeadEntry n f s).bus = s.bus ∧ (updHeadEntry n f s).wires = s.wires ∧
      (updHeadEntry n f s).pending = s.pending ∧ (∀ m, (updHeadEntry n f s).port m = s.port m) ∧
      (∀ m, (updHeadEntry n f s).credit m = s.credit m) ∧ (∀ m, (updHeadEntry n f s).head m = s.head m) ∧
      (∀ m, (updHeadEntry n f s).delivery m = s.delivery m) ∧
      (∀ m, (updHeadEntry n f s).outbound m = s.outbound m) ∧ (∀ m, (updHeadEntry n f s).wire m = s.wire m) ∧
      (∀ x, (updHeadEntry n f s).ring x = s.ring x) ∧ (∀ x, (updHeadEntry n f s).slot x = s.slot x) := by
  simp [updHeadEntry]

@[simp] theorem setForwardLeg_frame (n : LineId) (leg : Leg) (s : State) :
    (setForwardLeg n leg s).ports = s.ports ∧ (setForwardLeg n leg s).credits = s.credits ∧
      (setForwardLeg n leg s).heads = s.heads ∧ (setForwardLeg n leg s).deliveries = s.deliveries ∧
      (setForwardLeg n leg s).outbounds = s.outbounds ∧ (setForwardLeg n leg s).ddr = s.ddr ∧
      (setForwardLeg n leg s).time = s.time ∧ (setForwardLeg n leg s).part = s.part ∧
      (setForwardLeg n leg s).rings = s.rings ∧ (setForwardLeg n leg s).slots = s.slots ∧
      (setForwardLeg n leg s).held = s.held ∧ (setForwardLeg n leg s).command = s.command ∧
      (setForwardLeg n leg s).bus = s.bus ∧ (setForwardLeg n leg s).wires = s.wires ∧
      (setForwardLeg n leg s).pending = s.pending ∧ (∀ m, (setForwardLeg n leg s).port m = s.port m) ∧
      (∀ m, (setForwardLeg n leg s).credit m = s.credit m) ∧ (∀ m, (setForwardLeg n leg s).head m = s.head m) ∧
      (∀ m, (setForwardLeg n leg s).delivery m = s.delivery m) ∧
      (∀ m, (setForwardLeg n leg s).outbound m = s.outbound m) ∧
      (∀ m, (setForwardLeg n leg s).wire m = s.wire m) ∧ (∀ x, (setForwardLeg n leg s).ring x = s.ring x) ∧
      (∀ x, (setForwardLeg n leg s).slot x = s.slot x) := by
  simp [setForwardLeg]

@[simp] theorem setDeliveryLeg_frame (n : LineId) (leg : Leg) (s : State) :
    (setDeliveryLeg n leg s).ports = s.ports ∧ (setDeliveryLeg n leg s).credits = s.credits ∧
      (setDeliveryLeg n leg s).heads = s.heads ∧ (setDeliveryLeg n leg s).deliveries = s.deliveries ∧
      (setDeliveryLeg n leg s).outbounds = s.outbounds ∧ (setDeliveryLeg n leg s).ddr = s.ddr ∧
      (setDeliveryLeg n leg s).time = s.time ∧ (setDeliveryLeg n leg s).part = s.part ∧
      (setDeliveryLeg n leg s).rings = s.rings ∧ (setDeliveryLeg n leg s).slots = s.slots ∧
      (setDeliveryLeg n leg s).held = s.held ∧ (setDeliveryLeg n leg s).command = s.command ∧
      (setDeliveryLeg n leg s).bus = s.bus ∧ (setDeliveryLeg n leg s).wires = s.wires ∧
      (setDeliveryLeg n leg s).pending = s.pending ∧ (∀ m, (setDeliveryLeg n leg s).port m = s.port m) ∧
      (∀ m, (setDeliveryLeg n leg s).credit m = s.credit m) ∧
      (∀ m, (setDeliveryLeg n leg s).head m = s.head m) ∧
      (∀ m, (setDeliveryLeg n leg s).delivery m = s.delivery m) ∧
      (∀ m, (setDeliveryLeg n leg s).outbound m = s.outbound m) ∧
      (∀ m, (setDeliveryLeg n leg s).wire m = s.wire m) ∧ (∀ x, (setDeliveryLeg n leg s).ring x = s.ring x) ∧
      (∀ x, (setDeliveryLeg n leg s).slot x = s.slot x) := by
  simp [setDeliveryLeg]

@[simp] theorem fetchSend_frame (n : LineId) (s : State) :
    (fetchSend n s).ports = s.ports ∧ (fetchSend n s).credits = s.credits ∧ (fetchSend n s).stores = s.stores ∧
      (fetchSend n s).heads = s.heads ∧ (fetchSend n s).deliveries = s.deliveries ∧
      (fetchSend n s).ddr = s.ddr ∧ (fetchSend n s).time = s.time ∧ (fetchSend n s).part = s.part ∧
      (fetchSend n s).rings = s.rings ∧ (fetchSend n s).slots = s.slots ∧ (fetchSend n s).held = s.held ∧
      (fetchSend n s).command = s.command ∧ (fetchSend n s).wires = s.wires ∧
      (fetchSend n s).pending = s.pending ∧ (∀ m, (fetchSend n s).port m = s.port m) ∧
      (∀ m, (fetchSend n s).credit m = s.credit m) ∧ (∀ m, (fetchSend n s).store m = s.store m) ∧
      (∀ m, (fetchSend n s).head m = s.head m) ∧ (∀ m, (fetchSend n s).delivery m = s.delivery m) ∧
      (∀ m, (fetchSend n s).wire m = s.wire m) ∧ (∀ x, (fetchSend n s).ring x = s.ring x) ∧
      (∀ x, (fetchSend n s).slot x = s.slot x) := by
  simp only [fetchSend]
  repeat' split
  all_goals simp

@[simp] theorem issueReads_frame (n : LineId) (s : State) :
    (issueReads n s).ports = s.ports ∧ (issueReads n s).credits = s.credits ∧
      (issueReads n s).stores = s.stores ∧ (issueReads n s).heads = s.heads ∧
      (issueReads n s).deliveries = s.deliveries ∧ (issueReads n s).ddr = s.ddr ∧
      (issueReads n s).time = s.time ∧ (issueReads n s).part = s.part ∧ (issueReads n s).rings = s.rings ∧
      (issueReads n s).slots = s.slots ∧ (issueReads n s).held = s.held ∧
      (issueReads n s).command = s.command ∧ (issueReads n s).wires = s.wires ∧
      (issueReads n s).pending = s.pending ∧ (∀ m, (issueReads n s).port m = s.port m) ∧
      (∀ m, (issueReads n s).credit m = s.credit m) ∧ (∀ m, (issueReads n s).store m = s.store m) ∧
      (∀ m, (issueReads n s).head m = s.head m) ∧ (∀ m, (issueReads n s).delivery m = s.delivery m) ∧
      (∀ m, (issueReads n s).wire m = s.wire m) ∧ (∀ x, (issueReads n s).ring x = s.ring x) ∧
      (∀ x, (issueReads n s).slot x = s.slot x) := by
  simp only [issueReads]
  repeat' split
  all_goals simp

@[simp] theorem startTransmission_frame (d : LineId) (w : Winner) (t : Transmission) (runs : List Segment) (s : State) :
    (startTransmission d w t runs s).ports = s.ports ∧ (startTransmission d w t runs s).credits = s.credits ∧
      (startTransmission d w t runs s).stores = s.stores ∧ (startTransmission d w t runs s).heads = s.heads ∧
      (startTransmission d w t runs s).deliveries = s.deliveries ∧
      (startTransmission d w t runs s).ddr = s.ddr ∧ (startTransmission d w t runs s).time = s.time ∧
      (startTransmission d w t runs s).part = s.part ∧ (startTransmission d w t runs s).rings = s.rings ∧
      (startTransmission d w t runs s).slots = s.slots ∧ (startTransmission d w t runs s).held = s.held ∧
      (startTransmission d w t runs s).command = s.command ∧ (startTransmission d w t runs s).wires = s.wires ∧
      (startTransmission d w t runs s).pending = s.pending ∧
      (∀ m, (startTransmission d w t runs s).port m = s.port m) ∧
      (∀ m, (startTransmission d w t runs s).credit m = s.credit m) ∧
      (∀ m, (startTransmission d w t runs s).store m = s.store m) ∧
      (∀ m, (startTransmission d w t runs s).head m = s.head m) ∧
      (∀ m, (startTransmission d w t runs s).delivery m = s.delivery m) ∧
      (∀ m, (startTransmission d w t runs s).wire m = s.wire m) ∧
      (∀ x, (startTransmission d w t runs s).ring x = s.ring x) ∧
      (∀ x, (startTransmission d w t runs s).slot x = s.slot x) := by
  simp [startTransmission]

@[simp] theorem grantHost_frame (d : LineId) (s : State) :
    (grantHost d s).ports = s.ports ∧ (grantHost d s).credits = s.credits ∧ (grantHost d s).stores = s.stores ∧
      (grantHost d s).heads = s.heads ∧ (grantHost d s).deliveries = s.deliveries ∧
      (grantHost d s).ddr = s.ddr ∧ (grantHost d s).time = s.time ∧ (grantHost d s).part = s.part ∧
      (grantHost d s).rings = s.rings ∧ (grantHost d s).slots = s.slots ∧ (grantHost d s).held = s.held ∧
      (grantHost d s).command = s.command ∧ (grantHost d s).wires = s.wires ∧
      (grantHost d s).pending = s.pending ∧ (∀ m, (grantHost d s).port m = s.port m) ∧
      (∀ m, (grantHost d s).credit m = s.credit m) ∧ (∀ m, (grantHost d s).store m = s.store m) ∧
      (∀ m, (grantHost d s).head m = s.head m) ∧ (∀ m, (grantHost d s).delivery m = s.delivery m) ∧
      (∀ m, (grantHost d s).wire m = s.wire m) ∧ (∀ x, (grantHost d s).ring x = s.ring x) ∧
      (∀ x, (grantHost d s).slot x = s.slot x) := by
  simp only [grantHost]
  repeat' split
  all_goals simp

@[simp] theorem grantForward_frame (d i : LineId) (s : State) :
    (grantForward d i s).ports = s.ports ∧ (grantForward d i s).credits = s.credits ∧
      (grantForward d i s).heads = s.heads ∧ (grantForward d i s).deliveries = s.deliveries ∧
      (grantForward d i s).ddr = s.ddr ∧ (grantForward d i s).time = s.time ∧
      (grantForward d i s).part = s.part ∧ (grantForward d i s).rings = s.rings ∧
      (grantForward d i s).slots = s.slots ∧ (grantForward d i s).held = s.held ∧
      (grantForward d i s).command = s.command ∧ (grantForward d i s).wires = s.wires ∧
      (grantForward d i s).pending = s.pending ∧ (∀ m, (grantForward d i s).port m = s.port m) ∧
      (∀ m, (grantForward d i s).credit m = s.credit m) ∧ (∀ m, (grantForward d i s).head m = s.head m) ∧
      (∀ m, (grantForward d i s).delivery m = s.delivery m) ∧ (∀ m, (grantForward d i s).wire m = s.wire m) ∧
      (∀ x, (grantForward d i s).ring x = s.ring x) ∧ (∀ x, (grantForward d i s).slot x = s.slot x) := by
  simp only [grantForward]
  repeat' split
  all_goals simp

@[simp] theorem arbitrate_frame (d : LineId) (s : State) :
    (arbitrate d s).ports = s.ports ∧ (arbitrate d s).credits = s.credits ∧ (arbitrate d s).heads = s.heads ∧
      (arbitrate d s).deliveries = s.deliveries ∧ (arbitrate d s).ddr = s.ddr ∧ (arbitrate d s).time = s.time ∧
      (arbitrate d s).part = s.part ∧ (arbitrate d s).rings = s.rings ∧ (arbitrate d s).slots = s.slots ∧
      (arbitrate d s).held = s.held ∧ (arbitrate d s).command = s.command ∧ (arbitrate d s).wires = s.wires ∧
      (arbitrate d s).pending = s.pending ∧ (∀ m, (arbitrate d s).port m = s.port m) ∧
      (∀ m, (arbitrate d s).credit m = s.credit m) ∧ (∀ m, (arbitrate d s).head m = s.head m) ∧
      (∀ m, (arbitrate d s).delivery m = s.delivery m) ∧ (∀ m, (arbitrate d s).wire m = s.wire m) ∧
      (∀ x, (arbitrate d s).ring x = s.ring x) ∧ (∀ x, (arbitrate d s).slot x = s.slot x) := by
  simp only [arbitrate]
  repeat' split
  all_goals simp

@[simp] theorem writeSent_frame (n : LineId) (records : List SendRecord) (bytes : Nat) (status : SentStatus) (endKind : Option EndKind) (s : State) :
    (writeSent n records bytes status endKind s).ports = s.ports ∧
      (writeSent n records bytes status endKind s).credits = s.credits ∧
      (writeSent n records bytes status endKind s).stores = s.stores ∧
      (writeSent n records bytes status endKind s).heads = s.heads ∧
      (writeSent n records bytes status endKind s).deliveries = s.deliveries ∧
      (writeSent n records bytes status endKind s).outbounds = s.outbounds ∧
      (writeSent n records bytes status endKind s).ddr = s.ddr ∧
      (writeSent n records bytes status endKind s).time = s.time ∧
      (writeSent n records bytes status endKind s).part = s.part ∧
      (writeSent n records bytes status endKind s).held = s.held ∧
      (writeSent n records bytes status endKind s).command = s.command ∧
      (writeSent n records bytes status endKind s).wires = s.wires ∧
      (writeSent n records bytes status endKind s).pending = s.pending ∧
      (∀ m, (writeSent n records bytes status endKind s).port m = s.port m) ∧
      (∀ m, (writeSent n records bytes status endKind s).credit m = s.credit m) ∧
      (∀ m, (writeSent n records bytes status endKind s).store m = s.store m) ∧
      (∀ m, (writeSent n records bytes status endKind s).head m = s.head m) ∧
      (∀ m, (writeSent n records bytes status endKind s).delivery m = s.delivery m) ∧
      (∀ m, (writeSent n records bytes status endKind s).outbound m = s.outbound m) ∧
      (∀ m, (writeSent n records bytes status endKind s).wire m = s.wire m) := by
  simp [writeSent]

@[simp] theorem reportBadChain_frame (n : LineId) (s : State) :
    (reportBadChain n s).ports = s.ports ∧ (reportBadChain n s).credits = s.credits ∧
      (reportBadChain n s).stores = s.stores ∧ (reportBadChain n s).heads = s.heads ∧
      (reportBadChain n s).deliveries = s.deliveries ∧ (reportBadChain n s).ddr = s.ddr ∧
      (reportBadChain n s).time = s.time ∧ (reportBadChain n s).part = s.part ∧
      (reportBadChain n s).held = s.held ∧ (reportBadChain n s).command = s.command ∧
      (reportBadChain n s).wires = s.wires ∧ (reportBadChain n s).pending = s.pending ∧
      (∀ m, (reportBadChain n s).port m = s.port m) ∧ (∀ m, (reportBadChain n s).credit m = s.credit m) ∧
      (∀ m, (reportBadChain n s).store m = s.store m) ∧ (∀ m, (reportBadChain n s).head m = s.head m) ∧
      (∀ m, (reportBadChain n s).delivery m = s.delivery m) ∧ (∀ m, (reportBadChain n s).wire m = s.wire m) := by
  simp only [reportBadChain]
  repeat' split
  all_goals simp

@[simp] theorem cancelChain_frame (n : LineId) (c : Chain) (s : State) :
    (cancelChain n c s).ports = s.ports ∧ (cancelChain n c s).credits = s.credits ∧
      (cancelChain n c s).stores = s.stores ∧ (cancelChain n c s).heads = s.heads ∧
      (cancelChain n c s).deliveries = s.deliveries ∧ (cancelChain n c s).ddr = s.ddr ∧
      (cancelChain n c s).time = s.time ∧ (cancelChain n c s).part = s.part ∧
      (cancelChain n c s).held = s.held ∧ (cancelChain n c s).command = s.command ∧
      (cancelChain n c s).wires = s.wires ∧ (cancelChain n c s).pending = s.pending ∧
      (∀ m, (cancelChain n c s).port m = s.port m) ∧ (∀ m, (cancelChain n c s).credit m = s.credit m) ∧
      (∀ m, (cancelChain n c s).store m = s.store m) ∧ (∀ m, (cancelChain n c s).head m = s.head m) ∧
      (∀ m, (cancelChain n c s).delivery m = s.delivery m) ∧ (∀ m, (cancelChain n c s).wire m = s.wire m) := by
  simp [cancelChain]

@[simp] theorem finishCancel_frame (n : LineId) (k : Cancel) (s : State) :
    (finishCancel n k s).ports = s.ports ∧ (finishCancel n k s).credits = s.credits ∧
      (finishCancel n k s).stores = s.stores ∧ (finishCancel n k s).heads = s.heads ∧
      (finishCancel n k s).deliveries = s.deliveries ∧ (finishCancel n k s).ddr = s.ddr ∧
      (finishCancel n k s).time = s.time ∧ (finishCancel n k s).part = s.part ∧
      (finishCancel n k s).held = s.held ∧ (finishCancel n k s).wires = s.wires ∧
      (finishCancel n k s).pending = s.pending ∧ (∀ m, (finishCancel n k s).port m = s.port m) ∧
      (∀ m, (finishCancel n k s).credit m = s.credit m) ∧ (∀ m, (finishCancel n k s).store m = s.store m) ∧
      (∀ m, (finishCancel n k s).head m = s.head m) ∧ (∀ m, (finishCancel n k s).delivery m = s.delivery m) ∧
      (∀ m, (finishCancel n k s).wire m = s.wire m) := by
  simp [finishCancel]

@[simp] theorem cancelAssembly_frame (n : LineId) (s : State) :
    (cancelAssembly n s).ports = s.ports ∧ (cancelAssembly n s).credits = s.credits ∧
      (cancelAssembly n s).stores = s.stores ∧ (cancelAssembly n s).heads = s.heads ∧
      (cancelAssembly n s).deliveries = s.deliveries ∧ (cancelAssembly n s).ddr = s.ddr ∧
      (cancelAssembly n s).time = s.time ∧ (cancelAssembly n s).part = s.part ∧
      (cancelAssembly n s).held = s.held ∧ (cancelAssembly n s).command = s.command ∧
      (cancelAssembly n s).wires = s.wires ∧ (cancelAssembly n s).pending = s.pending ∧
      (∀ m, (cancelAssembly n s).port m = s.port m) ∧ (∀ m, (cancelAssembly n s).credit m = s.credit m) ∧
      (∀ m, (cancelAssembly n s).store m = s.store m) ∧ (∀ m, (cancelAssembly n s).head m = s.head m) ∧
      (∀ m, (cancelAssembly n s).delivery m = s.delivery m) ∧ (∀ m, (cancelAssembly n s).wire m = s.wire m) := by
  simp only [cancelAssembly]
  repeat' split
  all_goals simp

@[simp] theorem closeCancel_frame (n : LineId) (s : State) :
    (closeCancel n s).ports = s.ports ∧ (closeCancel n s).credits = s.credits ∧
      (closeCancel n s).stores = s.stores ∧ (closeCancel n s).heads = s.heads ∧
      (closeCancel n s).deliveries = s.deliveries ∧ (closeCancel n s).ddr = s.ddr ∧
      (closeCancel n s).time = s.time ∧ (closeCancel n s).part = s.part ∧ (closeCancel n s).held = s.held ∧
      (closeCancel n s).wires = s.wires ∧ (closeCancel n s).pending = s.pending ∧
      (∀ m, (closeCancel n s).port m = s.port m) ∧ (∀ m, (closeCancel n s).credit m = s.credit m) ∧
      (∀ m, (closeCancel n s).store m = s.store m) ∧ (∀ m, (closeCancel n s).head m = s.head m) ∧
      (∀ m, (closeCancel n s).delivery m = s.delivery m) ∧ (∀ m, (closeCancel n s).wire m = s.wire m) := by
  simp only [closeCancel]
  repeat' split
  all_goals simp

@[simp] theorem advanceCancel_frame (n : LineId) (s : State) :
    (advanceCancel n s).ports = s.ports ∧ (advanceCancel n s).credits = s.credits ∧
      (advanceCancel n s).stores = s.stores ∧ (advanceCancel n s).heads = s.heads ∧
      (advanceCancel n s).deliveries = s.deliveries ∧ (advanceCancel n s).ddr = s.ddr ∧
      (advanceCancel n s).time = s.time ∧ (advanceCancel n s).part = s.part ∧
      (advanceCancel n s).held = s.held ∧ (advanceCancel n s).wires = s.wires ∧
      (advanceCancel n s).pending = s.pending ∧ (∀ m, (advanceCancel n s).port m = s.port m) ∧
      (∀ m, (advanceCancel n s).credit m = s.credit m) ∧ (∀ m, (advanceCancel n s).store m = s.store m) ∧
      (∀ m, (advanceCancel n s).head m = s.head m) ∧ (∀ m, (advanceCancel n s).delivery m = s.delivery m) ∧
      (∀ m, (advanceCancel n s).wire m = s.wire m) := by
  simp only [advanceCancel]
  repeat' split
  all_goals simp

@[simp] theorem beginCancel_frame (n : LineId) (s : State) :
    (beginCancel n s).ports = s.ports ∧ (beginCancel n s).credits = s.credits ∧
      (beginCancel n s).stores = s.stores ∧ (beginCancel n s).heads = s.heads ∧
      (beginCancel n s).deliveries = s.deliveries ∧ (beginCancel n s).ddr = s.ddr ∧
      (beginCancel n s).time = s.time ∧ (beginCancel n s).part = s.part ∧ (beginCancel n s).held = s.held ∧
      (beginCancel n s).wires = s.wires ∧ (beginCancel n s).pending = s.pending ∧
      (∀ m, (beginCancel n s).port m = s.port m) ∧ (∀ m, (beginCancel n s).credit m = s.credit m) ∧
      (∀ m, (beginCancel n s).store m = s.store m) ∧ (∀ m, (beginCancel n s).head m = s.head m) ∧
      (∀ m, (beginCancel n s).delivery m = s.delivery m) ∧ (∀ m, (beginCancel n s).wire m = s.wire m) := by
  simp only [beginCancel]
  repeat' split
  all_goals simp

@[simp] theorem holdChain_frame (n : LineId) (c : Chain) (s : State) :
    (holdChain n c s).ports = s.ports ∧ (holdChain n c s).credits = s.credits ∧
      (holdChain n c s).heads = s.heads ∧ (holdChain n c s).deliveries = s.deliveries ∧
      (holdChain n c s).ddr = s.ddr ∧ (holdChain n c s).time = s.time ∧ (holdChain n c s).part = s.part ∧
      (holdChain n c s).held = s.held ∧ (holdChain n c s).wires = s.wires ∧
      (holdChain n c s).pending = s.pending ∧ (∀ m, (holdChain n c s).port m = s.port m) ∧
      (∀ m, (holdChain n c s).credit m = s.credit m) ∧ (∀ m, (holdChain n c s).head m = s.head m) ∧
      (∀ m, (holdChain n c s).delivery m = s.delivery m) ∧ (∀ m, (holdChain n c s).wire m = s.wire m) := by
  simp only [holdChain]
  repeat' split
  all_goals simp

@[simp] theorem submitChain_frame (n : LineId) (c : Chain) (s : State) :
    (submitChain n c s).ports = s.ports ∧ (submitChain n c s).credits = s.credits ∧
      (submitChain n c s).heads = s.heads ∧ (submitChain n c s).deliveries = s.deliveries ∧
      (submitChain n c s).ddr = s.ddr ∧ (submitChain n c s).time = s.time ∧ (submitChain n c s).part = s.part ∧
      (submitChain n c s).held = s.held ∧ (submitChain n c s).wires = s.wires ∧
      (submitChain n c s).pending = s.pending ∧ (∀ m, (submitChain n c s).port m = s.port m) ∧
      (∀ m, (submitChain n c s).credit m = s.credit m) ∧ (∀ m, (submitChain n c s).head m = s.head m) ∧
      (∀ m, (submitChain n c s).delivery m = s.delivery m) ∧ (∀ m, (submitChain n c s).wire m = s.wire m) := by
  simp only [submitChain]
  repeat' split
  all_goals simp

@[simp] theorem acceptSendRecord_frame (n : LineId) (r : SendRecord) (s : State) :
    (acceptSendRecord n r s).ports = s.ports ∧ (acceptSendRecord n r s).credits = s.credits ∧
      (acceptSendRecord n r s).heads = s.heads ∧ (acceptSendRecord n r s).deliveries = s.deliveries ∧
      (acceptSendRecord n r s).ddr = s.ddr ∧ (acceptSendRecord n r s).time = s.time ∧
      (acceptSendRecord n r s).part = s.part ∧ (acceptSendRecord n r s).held = s.held ∧
      (acceptSendRecord n r s).wires = s.wires ∧ (acceptSendRecord n r s).pending = s.pending ∧
      (∀ m, (acceptSendRecord n r s).port m = s.port m) ∧
      (∀ m, (acceptSendRecord n r s).credit m = s.credit m) ∧
      (∀ m, (acceptSendRecord n r s).head m = s.head m) ∧
      (∀ m, (acceptSendRecord n r s).delivery m = s.delivery m) ∧
      (∀ m, (acceptSendRecord n r s).wire m = s.wire m) := by
  simp only [acceptSendRecord]
  repeat' split
  all_goals simp

@[simp] theorem resumeOutbound_frame (n : LineId) (s : State) :
    (resumeOutbound n s).ports = s.ports ∧ (resumeOutbound n s).credits = s.credits ∧
      (resumeOutbound n s).heads = s.heads ∧ (resumeOutbound n s).deliveries = s.deliveries ∧
      (resumeOutbound n s).ddr = s.ddr ∧ (resumeOutbound n s).time = s.time ∧
      (resumeOutbound n s).part = s.part ∧ (resumeOutbound n s).held = s.held ∧
      (resumeOutbound n s).wires = s.wires ∧ (resumeOutbound n s).pending = s.pending ∧
      (∀ m, (resumeOutbound n s).port m = s.port m) ∧ (∀ m, (resumeOutbound n s).credit m = s.credit m) ∧
      (∀ m, (resumeOutbound n s).head m = s.head m) ∧ (∀ m, (resumeOutbound n s).delivery m = s.delivery m) ∧
      (∀ m, (resumeOutbound n s).wire m = s.wire m) := by
  simp only [resumeOutbound]
  repeat' split
  all_goals simp

@[simp] theorem postDelivered_frame (n : LineId) (s : State) :
    (postDelivered n s).ports = s.ports ∧ (postDelivered n s).credits = s.credits ∧
      (postDelivered n s).heads = s.heads ∧ (postDelivered n s).outbounds = s.outbounds ∧
      (postDelivered n s).ddr = s.ddr ∧ (postDelivered n s).time = s.time ∧ (postDelivered n s).part = s.part ∧
      (postDelivered n s).held = s.held ∧ (postDelivered n s).command = s.command ∧
      (postDelivered n s).wires = s.wires ∧ (postDelivered n s).pending = s.pending ∧
      (∀ m, (postDelivered n s).port m = s.port m) ∧ (∀ m, (postDelivered n s).credit m = s.credit m) ∧
      (∀ m, (postDelivered n s).head m = s.head m) ∧ (∀ m, (postDelivered n s).outbound m = s.outbound m) ∧
      (∀ m, (postDelivered n s).wire m = s.wire m) := by
  simp only [postDelivered]
  repeat' split
  all_goals simp

@[simp] theorem endPartial_frame (n : LineId) (s : State) :
    (endPartial n s).ports = s.ports ∧ (endPartial n s).credits = s.credits ∧
      (endPartial n s).heads = s.heads ∧ (endPartial n s).outbounds = s.outbounds ∧
      (endPartial n s).ddr = s.ddr ∧ (endPartial n s).time = s.time ∧ (endPartial n s).part = s.part ∧
      (endPartial n s).held = s.held ∧ (endPartial n s).command = s.command ∧
      (endPartial n s).wires = s.wires ∧ (endPartial n s).pending = s.pending ∧
      (∀ m, (endPartial n s).port m = s.port m) ∧ (∀ m, (endPartial n s).credit m = s.credit m) ∧
      (∀ m, (endPartial n s).head m = s.head m) ∧ (∀ m, (endPartial n s).outbound m = s.outbound m) ∧
      (∀ m, (endPartial n s).wire m = s.wire m) := by
  simp only [endPartial]
  repeat' split
  all_goals simp

@[simp] theorem fetchFill_frame (n : LineId) (s : State) :
    (fetchFill n s).ports = s.ports ∧ (fetchFill n s).credits = s.credits ∧ (fetchFill n s).stores = s.stores ∧
      (fetchFill n s).heads = s.heads ∧ (fetchFill n s).outbounds = s.outbounds ∧ (fetchFill n s).ddr = s.ddr ∧
      (fetchFill n s).time = s.time ∧ (fetchFill n s).part = s.part ∧ (fetchFill n s).rings = s.rings ∧
      (fetchFill n s).slots = s.slots ∧ (fetchFill n s).held = s.held ∧ (fetchFill n s).command = s.command ∧
      (fetchFill n s).wires = s.wires ∧ (fetchFill n s).pending = s.pending ∧
      (∀ m, (fetchFill n s).port m = s.port m) ∧ (∀ m, (fetchFill n s).credit m = s.credit m) ∧
      (∀ m, (fetchFill n s).store m = s.store m) ∧ (∀ m, (fetchFill n s).head m = s.head m) ∧
      (∀ m, (fetchFill n s).outbound m = s.outbound m) ∧ (∀ m, (fetchFill n s).wire m = s.wire m) ∧
      (∀ x, (fetchFill n s).ring x = s.ring x) ∧ (∀ x, (fetchFill n s).slot x = s.slot x) := by
  simp [fetchFill]

@[simp] theorem reserveSpare_frame (n : LineId) (s : State) :
    (reserveSpare n s).ports = s.ports ∧ (reserveSpare n s).credits = s.credits ∧
      (reserveSpare n s).heads = s.heads ∧ (reserveSpare n s).outbounds = s.outbounds ∧
      (reserveSpare n s).ddr = s.ddr ∧ (reserveSpare n s).time = s.time ∧ (reserveSpare n s).part = s.part ∧
      (reserveSpare n s).held = s.held ∧ (reserveSpare n s).command = s.command ∧
      (reserveSpare n s).wires = s.wires ∧ (reserveSpare n s).pending = s.pending ∧
      (∀ m, (reserveSpare n s).port m = s.port m) ∧ (∀ m, (reserveSpare n s).credit m = s.credit m) ∧
      (∀ m, (reserveSpare n s).head m = s.head m) ∧ (∀ m, (reserveSpare n s).outbound m = s.outbound m) ∧
      (∀ m, (reserveSpare n s).wire m = s.wire m) := by
  simp only [reserveSpare]
  repeat' split
  all_goals simp

@[simp] theorem needRecord_frame (n : LineId) (s : State) :
    (needRecord n s).ports = s.ports ∧ (needRecord n s).credits = s.credits ∧
      (needRecord n s).heads = s.heads ∧ (needRecord n s).outbounds = s.outbounds ∧
      (needRecord n s).ddr = s.ddr ∧ (needRecord n s).time = s.time ∧ (needRecord n s).part = s.part ∧
      (needRecord n s).held = s.held ∧ (needRecord n s).command = s.command ∧
      (needRecord n s).wires = s.wires ∧ (needRecord n s).pending = s.pending ∧
      (∀ m, (needRecord n s).port m = s.port m) ∧ (∀ m, (needRecord n s).credit m = s.credit m) ∧
      (∀ m, (needRecord n s).head m = s.head m) ∧ (∀ m, (needRecord n s).outbound m = s.outbound m) ∧
      (∀ m, (needRecord n s).wire m = s.wire m) := by
  simp only [needRecord]
  repeat' split
  all_goals simp

@[simp] theorem startLeg_frame (n : LineId) (s : State) :
    (startLeg n s).ports = s.ports ∧ (startLeg n s).credits = s.credits ∧ (startLeg n s).heads = s.heads ∧
      (startLeg n s).outbounds = s.outbounds ∧ (startLeg n s).ddr = s.ddr ∧ (startLeg n s).time = s.time ∧
      (startLeg n s).part = s.part ∧ (startLeg n s).held = s.held ∧ (startLeg n s).command = s.command ∧
      (startLeg n s).wires = s.wires ∧ (startLeg n s).pending = s.pending ∧
      (∀ m, (startLeg n s).port m = s.port m) ∧ (∀ m, (startLeg n s).credit m = s.credit m) ∧
      (∀ m, (startLeg n s).head m = s.head m) ∧ (∀ m, (startLeg n s).outbound m = s.outbound m) ∧
      (∀ m, (startLeg n s).wire m = s.wire m) := by
  simp only [startLeg]
  repeat' split
  all_goals simp

@[simp] theorem takeUpLeg_frame (n : LineId) (s : State) :
    (takeUpLeg n s).ports = s.ports ∧ (takeUpLeg n s).credits = s.credits ∧ (takeUpLeg n s).heads = s.heads ∧
      (takeUpLeg n s).outbounds = s.outbounds ∧ (takeUpLeg n s).ddr = s.ddr ∧ (takeUpLeg n s).time = s.time ∧
      (takeUpLeg n s).part = s.part ∧ (takeUpLeg n s).held = s.held ∧ (takeUpLeg n s).command = s.command ∧
      (takeUpLeg n s).wires = s.wires ∧ (takeUpLeg n s).pending = s.pending ∧
      (∀ m, (takeUpLeg n s).port m = s.port m) ∧ (∀ m, (takeUpLeg n s).credit m = s.credit m) ∧
      (∀ m, (takeUpLeg n s).head m = s.head m) ∧ (∀ m, (takeUpLeg n s).outbound m = s.outbound m) ∧
      (∀ m, (takeUpLeg n s).wire m = s.wire m) := by
  simp only [takeUpLeg]
  repeat' split
  all_goals simp

@[simp] theorem withdrawOffer_frame (n : LineId) (s : State) :
    (withdrawOffer n s).ports = s.ports ∧ (withdrawOffer n s).credits = s.credits ∧
      (withdrawOffer n s).stores = s.stores ∧ (withdrawOffer n s).heads = s.heads ∧
      (withdrawOffer n s).outbounds = s.outbounds ∧ (withdrawOffer n s).ddr = s.ddr ∧
      (withdrawOffer n s).time = s.time ∧ (withdrawOffer n s).part = s.part ∧
      (withdrawOffer n s).rings = s.rings ∧ (withdrawOffer n s).held = s.held ∧
      (withdrawOffer n s).command = s.command ∧ (withdrawOffer n s).bus = s.bus ∧
      (withdrawOffer n s).wires = s.wires ∧ (withdrawOffer n s).pending = s.pending ∧
      (∀ m, (withdrawOffer n s).port m = s.port m) ∧ (∀ m, (withdrawOffer n s).credit m = s.credit m) ∧
      (∀ m, (withdrawOffer n s).store m = s.store m) ∧ (∀ m, (withdrawOffer n s).head m = s.head m) ∧
      (∀ m, (withdrawOffer n s).outbound m = s.outbound m) ∧ (∀ m, (withdrawOffer n s).wire m = s.wire m) ∧
      (∀ x, (withdrawOffer n s).ring x = s.ring x) := by
  simp only [withdrawOffer]
  repeat' split
  all_goals simp

@[simp] theorem resumeRecordWait_frame (n : LineId) (s : State) :
    (resumeRecordWait n s).ports = s.ports ∧ (resumeRecordWait n s).credits = s.credits ∧
      (resumeRecordWait n s).heads = s.heads ∧ (resumeRecordWait n s).outbounds = s.outbounds ∧
      (resumeRecordWait n s).ddr = s.ddr ∧ (resumeRecordWait n s).time = s.time ∧
      (resumeRecordWait n s).part = s.part ∧ (resumeRecordWait n s).held = s.held ∧
      (resumeRecordWait n s).command = s.command ∧ (resumeRecordWait n s).wires = s.wires ∧
      (resumeRecordWait n s).pending = s.pending ∧ (∀ m, (resumeRecordWait n s).port m = s.port m) ∧
      (∀ m, (resumeRecordWait n s).credit m = s.credit m) ∧ (∀ m, (resumeRecordWait n s).head m = s.head m) ∧
      (∀ m, (resumeRecordWait n s).outbound m = s.outbound m) ∧ (∀ m, (resumeRecordWait n s).wire m = s.wire m) := by
  simp only [resumeRecordWait]
  repeat' split
  all_goals simp

@[simp] theorem resumeDelivery_frame (n : LineId) (s : State) :
    (resumeDelivery n s).ports = s.ports ∧ (resumeDelivery n s).credits = s.credits ∧
      (resumeDelivery n s).heads = s.heads ∧ (resumeDelivery n s).outbounds = s.outbounds ∧
      (resumeDelivery n s).ddr = s.ddr ∧ (resumeDelivery n s).time = s.time ∧
      (resumeDelivery n s).part = s.part ∧ (resumeDelivery n s).held = s.held ∧
      (resumeDelivery n s).command = s.command ∧ (resumeDelivery n s).wires = s.wires ∧
      (resumeDelivery n s).pending = s.pending ∧ (∀ m, (resumeDelivery n s).port m = s.port m) ∧
      (∀ m, (resumeDelivery n s).credit m = s.credit m) ∧ (∀ m, (resumeDelivery n s).head m = s.head m) ∧
      (∀ m, (resumeDelivery n s).outbound m = s.outbound m) ∧ (∀ m, (resumeDelivery n s).wire m = s.wire m) := by
  simp only [resumeDelivery]
  repeat' split
  all_goals simp

@[simp] theorem judgeFill_frame (n : LineId) (f : FillRecord) (s : State) :
    (judgeFill n f s).ports = s.ports ∧ (judgeFill n f s).credits = s.credits ∧
      (judgeFill n f s).heads = s.heads ∧ (judgeFill n f s).outbounds = s.outbounds ∧
      (judgeFill n f s).ddr = s.ddr ∧ (judgeFill n f s).time = s.time ∧ (judgeFill n f s).part = s.part ∧
      (judgeFill n f s).held = s.held ∧ (judgeFill n f s).command = s.command ∧
      (judgeFill n f s).wires = s.wires ∧ (judgeFill n f s).pending = s.pending ∧
      (∀ m, (judgeFill n f s).port m = s.port m) ∧ (∀ m, (judgeFill n f s).credit m = s.credit m) ∧
      (∀ m, (judgeFill n f s).head m = s.head m) ∧ (∀ m, (judgeFill n f s).outbound m = s.outbound m) ∧
      (∀ m, (judgeFill n f s).wire m = s.wire m) := by
  simp only [judgeFill]
  repeat' split
  all_goals simp

@[simp] theorem writeBuffer_frame (n : LineId) (e : IndexEntry) (c : CurrentRecord) (s : State) :
    (writeBuffer n e c s).ports = s.ports ∧ (writeBuffer n e c s).credits = s.credits ∧
      (writeBuffer n e c s).stores = s.stores ∧ (writeBuffer n e c s).heads = s.heads ∧
      (writeBuffer n e c s).outbounds = s.outbounds ∧ (writeBuffer n e c s).time = s.time ∧
      (writeBuffer n e c s).part = s.part ∧ (writeBuffer n e c s).rings = s.rings ∧
      (writeBuffer n e c s).slots = s.slots ∧ (writeBuffer n e c s).held = s.held ∧
      (writeBuffer n e c s).command = s.command ∧ (writeBuffer n e c s).wires = s.wires ∧
      (writeBuffer n e c s).pending = s.pending ∧ (∀ m, (writeBuffer n e c s).port m = s.port m) ∧
      (∀ m, (writeBuffer n e c s).credit m = s.credit m) ∧ (∀ m, (writeBuffer n e c s).store m = s.store m) ∧
      (∀ m, (writeBuffer n e c s).head m = s.head m) ∧ (∀ m, (writeBuffer n e c s).outbound m = s.outbound m) ∧
      (∀ m, (writeBuffer n e c s).wire m = s.wire m) ∧ (∀ x, (writeBuffer n e c s).ring x = s.ring x) ∧
      (∀ x, (writeBuffer n e c s).slot x = s.slot x) := by
  simp [writeBuffer]

@[simp] theorem afterBuffer_frame (n : LineId) (s : State) :
    (afterBuffer n s).ports = s.ports ∧ (afterBuffer n s).credits = s.credits ∧
      (afterBuffer n s).heads = s.heads ∧ (afterBuffer n s).outbounds = s.outbounds ∧
      (afterBuffer n s).ddr = s.ddr ∧ (afterBuffer n s).time = s.time ∧ (afterBuffer n s).part = s.part ∧
      (afterBuffer n s).held = s.held ∧ (afterBuffer n s).command = s.command ∧
      (afterBuffer n s).wires = s.wires ∧ (afterBuffer n s).pending = s.pending ∧
      (∀ m, (afterBuffer n s).port m = s.port m) ∧ (∀ m, (afterBuffer n s).credit m = s.credit m) ∧
      (∀ m, (afterBuffer n s).head m = s.head m) ∧ (∀ m, (afterBuffer n s).outbound m = s.outbound m) ∧
      (∀ m, (afterBuffer n s).wire m = s.wire m) := by
  simp only [afterBuffer]
  repeat' split
  all_goals simp

@[simp] theorem decideHead_frame (n : LineId) (s : State) :
    (decideHead n s).ports = s.ports ∧ (decideHead n s).credits = s.credits ∧
      (decideHead n s).deliveries = s.deliveries ∧ (decideHead n s).ddr = s.ddr ∧
      (decideHead n s).time = s.time ∧ (decideHead n s).part = s.part ∧ (decideHead n s).rings = s.rings ∧
      (decideHead n s).slots = s.slots ∧ (decideHead n s).held = s.held ∧
      (decideHead n s).command = s.command ∧ (decideHead n s).wires = s.wires ∧
      (decideHead n s).pending = s.pending ∧ (∀ m, (decideHead n s).port m = s.port m) ∧
      (∀ m, (decideHead n s).credit m = s.credit m) ∧ (∀ m, (decideHead n s).delivery m = s.delivery m) ∧
      (∀ m, (decideHead n s).wire m = s.wire m) ∧ (∀ x, (decideHead n s).ring x = s.ring x) ∧
      (∀ x, (decideHead n s).slot x = s.slot x) := by
  simp only [decideHead]
  repeat' split
  all_goals simp

@[simp] theorem endFlush_frame (flush : Option (BitVec 32)) (counted : Bool) (s : State) :
    (endFlush flush counted s).ports = s.ports ∧ (endFlush flush counted s).credits = s.credits ∧
      (endFlush flush counted s).stores = s.stores ∧ (endFlush flush counted s).heads = s.heads ∧
      (endFlush flush counted s).deliveries = s.deliveries ∧
      (endFlush flush counted s).outbounds = s.outbounds ∧ (endFlush flush counted s).ddr = s.ddr ∧
      (endFlush flush counted s).time = s.time ∧ (endFlush flush counted s).part = s.part ∧
      (endFlush flush counted s).held = s.held ∧ (endFlush flush counted s).wires = s.wires ∧
      (endFlush flush counted s).pending = s.pending ∧ (∀ m, (endFlush flush counted s).port m = s.port m) ∧
      (∀ m, (endFlush flush counted s).credit m = s.credit m) ∧
      (∀ m, (endFlush flush counted s).store m = s.store m) ∧
      (∀ m, (endFlush flush counted s).head m = s.head m) ∧
      (∀ m, (endFlush flush counted s).delivery m = s.delivery m) ∧
      (∀ m, (endFlush flush counted s).outbound m = s.outbound m) ∧
      (∀ m, (endFlush flush counted s).wire m = s.wire m) := by
  simp only [endFlush]
  repeat' split
  all_goals simp

@[simp] theorem retireHead_frame (n : LineId) (s : State) :
    (retireHead n s).ports = s.ports ∧ (retireHead n s).deliveries = s.deliveries ∧
      (retireHead n s).outbounds = s.outbounds ∧ (retireHead n s).ddr = s.ddr ∧
      (retireHead n s).time = s.time ∧ (retireHead n s).part = s.part ∧ (retireHead n s).wires = s.wires ∧
      (retireHead n s).pending = s.pending ∧ (∀ m, (retireHead n s).port m = s.port m) ∧
      (∀ m, (retireHead n s).delivery m = s.delivery m) ∧ (∀ m, (retireHead n s).outbound m = s.outbound m) ∧
      (∀ m, (retireHead n s).wire m = s.wire m) := by
  simp only [retireHead]
  repeat' split
  all_goals simp

/-- What carrying a head engine on leaves unchanged. -/
def settled (s t : State) : Prop :=
  t.ports = s.ports ∧ t.ddr = s.ddr ∧ t.time = s.time ∧ t.part = s.part ∧ t.wires = s.wires ∧ t.pending = s.pending
    ∧ (∀ m, t.port m = s.port m) ∧ (∀ m, t.wire m = s.wire m)

theorem headStep_settled {n : LineId} {s t : State} (h : headStep n s = some t) : settled s t := by
  simp only [headStep] at h
  repeat' split at h
  all_goals first | (cases h; simp [settled]) | simp at h

@[simp] theorem settleHead_frame (n : LineId) (s : State) :
    (settleHead n s).ports = s.ports ∧ (settleHead n s).ddr = s.ddr ∧ (settleHead n s).time = s.time ∧
      (settleHead n s).part = s.part ∧ (settleHead n s).wires = s.wires ∧
      (settleHead n s).pending = s.pending ∧ (∀ m, (settleHead n s).port m = s.port m) ∧
      (∀ m, (settleHead n s).wire m = s.wire m) := by
  have run : ∀ (k : Nat) (s : State), settled s (headRun k n s) := by
    intro k
    induction k with
    | zero => intro s; simp [headRun, settled]
    | succ k ih =>
      intro s
      simp only [headRun]
      split
      · rename_i t h
        have step := headStep_settled h
        have rest := ih t
        simp_all [settled]
      · simp [settled]
  have h := run (3 * (s.store n).index.length + 3) s
  simpa [settled, settleHead] using h

@[simp] theorem failPendingLegs_frame (n : LineId) (cause : LegCause) (s : State) :
    (failPendingLegs n cause s).ports = s.ports ∧ (failPendingLegs n cause s).credits = s.credits ∧
      (failPendingLegs n cause s).heads = s.heads ∧ (failPendingLegs n cause s).outbounds = s.outbounds ∧
      (failPendingLegs n cause s).ddr = s.ddr ∧ (failPendingLegs n cause s).time = s.time ∧
      (failPendingLegs n cause s).part = s.part ∧ (failPendingLegs n cause s).rings = s.rings ∧
      (failPendingLegs n cause s).held = s.held ∧ (failPendingLegs n cause s).command = s.command ∧
      (failPendingLegs n cause s).bus = s.bus ∧ (failPendingLegs n cause s).wires = s.wires ∧
      (failPendingLegs n cause s).pending = s.pending ∧ (∀ m, (failPendingLegs n cause s).port m = s.port m) ∧
      (∀ m, (failPendingLegs n cause s).credit m = s.credit m) ∧
      (∀ m, (failPendingLegs n cause s).head m = s.head m) ∧
      (∀ m, (failPendingLegs n cause s).outbound m = s.outbound m) ∧
      (∀ m, (failPendingLegs n cause s).wire m = s.wire m) ∧
      (∀ x, (failPendingLegs n cause s).ring x = s.ring x) := by
  simp [failPendingLegs]

@[simp] theorem releaseBehind_frame (n : LineId) (s : State) :
    (releaseBehind n s).ports = s.ports ∧ (releaseBehind n s).credits = s.credits ∧
      (releaseBehind n s).heads = s.heads ∧ (releaseBehind n s).deliveries = s.deliveries ∧
      (releaseBehind n s).outbounds = s.outbounds ∧ (releaseBehind n s).time = s.time ∧
      (releaseBehind n s).part = s.part ∧ (releaseBehind n s).rings = s.rings ∧
      (releaseBehind n s).slots = s.slots ∧ (releaseBehind n s).held = s.held ∧
      (releaseBehind n s).command = s.command ∧ (releaseBehind n s).bus = s.bus ∧
      (releaseBehind n s).wires = s.wires ∧ (releaseBehind n s).pending = s.pending ∧
      (∀ m, (releaseBehind n s).port m = s.port m) ∧ (∀ m, (releaseBehind n s).credit m = s.credit m) ∧
      (∀ m, (releaseBehind n s).head m = s.head m) ∧ (∀ m, (releaseBehind n s).delivery m = s.delivery m) ∧
      (∀ m, (releaseBehind n s).outbound m = s.outbound m) ∧ (∀ m, (releaseBehind n s).wire m = s.wire m) ∧
      (∀ x, (releaseBehind n s).ring x = s.ring x) ∧ (∀ x, (releaseBehind n s).slot x = s.slot x) := by
  simp only [releaseBehind]
  repeat' split
  all_goals simp

@[simp] theorem setHold_frame (n : LineId) (s : State) :
    (setHold n s).ports = s.ports ∧ (setHold n s).credits = s.credits ∧ (setHold n s).stores = s.stores ∧
      (setHold n s).outbounds = s.outbounds ∧ (setHold n s).ddr = s.ddr ∧ (setHold n s).time = s.time ∧
      (setHold n s).part = s.part ∧ (setHold n s).rings = s.rings ∧ (setHold n s).held = s.held ∧
      (setHold n s).command = s.command ∧ (setHold n s).bus = s.bus ∧ (setHold n s).wires = s.wires ∧
      (setHold n s).pending = s.pending ∧ (∀ m, (setHold n s).port m = s.port m) ∧
      (∀ m, (setHold n s).credit m = s.credit m) ∧ (∀ m, (setHold n s).store m = s.store m) ∧
      (∀ m, (setHold n s).outbound m = s.outbound m) ∧ (∀ m, (setHold n s).wire m = s.wire m) ∧
      (∀ x, (setHold n s).ring x = s.ring x) := by
  simp only [setHold]
  repeat' split
  all_goals simp

@[simp] theorem clearHold_frame (n : LineId) (s : State) :
    (clearHold n s).ports = s.ports ∧ (clearHold n s).ddr = s.ddr ∧ (clearHold n s).time = s.time ∧
      (clearHold n s).part = s.part ∧ (clearHold n s).wires = s.wires ∧ (clearHold n s).pending = s.pending ∧
      (∀ m, (clearHold n s).port m = s.port m) ∧ (∀ m, (clearHold n s).wire m = s.wire m) := by
  simp only [clearHold]
  repeat' split
  all_goals simp

@[simp] theorem expireHead_frame (n : LineId) (s : State) :
    (expireHead n s).ports = s.ports ∧ (expireHead n s).ddr = s.ddr ∧ (expireHead n s).time = s.time ∧
      (expireHead n s).part = s.part ∧ (expireHead n s).wires = s.wires ∧
      (expireHead n s).pending = s.pending ∧ (∀ m, (expireHead n s).port m = s.port m) ∧
      (∀ m, (expireHead n s).wire m = s.wire m) := by
  simp only [expireHead]
  repeat' split
  all_goals simp

@[simp] theorem flushStore_frame (n : LineId) (s : State) :
    (flushStore n s).ports = s.ports ∧ (flushStore n s).time = s.time ∧ (flushStore n s).part = s.part ∧
      (flushStore n s).wires = s.wires ∧ (flushStore n s).pending = s.pending ∧
      (∀ m, (flushStore n s).port m = s.port m) ∧ (∀ m, (flushStore n s).wire m = s.wire m) := by
  simp only [flushStore]
  repeat' split
  all_goals simp

@[simp] theorem endTransmission_frame (n : LineId) (s : State) :
    (endTransmission n s).ports = s.ports ∧ (endTransmission n s).ddr = s.ddr ∧
      (endTransmission n s).time = s.time ∧ (endTransmission n s).part = s.part ∧
      (endTransmission n s).wires = s.wires ∧ (endTransmission n s).pending = s.pending ∧
      (∀ m, (endTransmission n s).port m = s.port m) ∧ (∀ m, (endTransmission n s).wire m = s.wire m) := by
  simp only [endTransmission]
  repeat' split
  all_goals simp

@[simp] theorem cutTransmission_frame (n : LineId) (s : State) :
    (cutTransmission n s).ports = s.ports ∧ (cutTransmission n s).credits = s.credits ∧
      (cutTransmission n s).heads = s.heads ∧ (cutTransmission n s).deliveries = s.deliveries ∧
      (cutTransmission n s).ddr = s.ddr ∧ (cutTransmission n s).time = s.time ∧
      (cutTransmission n s).part = s.part ∧ (cutTransmission n s).command = s.command ∧
      (cutTransmission n s).wires = s.wires ∧ (cutTransmission n s).pending = s.pending ∧
      (∀ m, (cutTransmission n s).port m = s.port m) ∧ (∀ m, (cutTransmission n s).credit m = s.credit m) ∧
      (∀ m, (cutTransmission n s).head m = s.head m) ∧ (∀ m, (cutTransmission n s).delivery m = s.delivery m) ∧
      (∀ m, (cutTransmission n s).wire m = s.wire m) := by
  simp only [cutTransmission]
  repeat' split
  all_goals simp

@[simp] theorem allocate_frame (n : LineId) (tag : Option Byte) (s : State) :
    (allocate n tag s).ports = s.ports ∧ (allocate n tag s).credits = s.credits ∧
      (allocate n tag s).heads = s.heads ∧ (allocate n tag s).deliveries = s.deliveries ∧
      (allocate n tag s).outbounds = s.outbounds ∧ (allocate n tag s).ddr = s.ddr ∧
      (allocate n tag s).time = s.time ∧ (allocate n tag s).part = s.part ∧
      (allocate n tag s).rings = s.rings ∧ (allocate n tag s).slots = s.slots ∧
      (allocate n tag s).held = s.held ∧ (allocate n tag s).command = s.command ∧
      (allocate n tag s).bus = s.bus ∧ (allocate n tag s).wires = s.wires ∧
      (allocate n tag s).pending = s.pending ∧ (∀ m, (allocate n tag s).port m = s.port m) ∧
      (∀ m, (allocate n tag s).credit m = s.credit m) ∧ (∀ m, (allocate n tag s).head m = s.head m) ∧
      (∀ m, (allocate n tag s).delivery m = s.delivery m) ∧
      (∀ m, (allocate n tag s).outbound m = s.outbound m) ∧ (∀ m, (allocate n tag s).wire m = s.wire m) ∧
      (∀ x, (allocate n tag s).ring x = s.ring x) ∧ (∀ x, (allocate n tag s).slot x = s.slot x) := by
  simp [allocate]

@[simp] theorem countDrop_frame (n : LineId) (sequence : Option (BitVec 16)) (s : State) :
    (countDrop n sequence s).ports = s.ports ∧ (countDrop n sequence s).credits = s.credits ∧
      (countDrop n sequence s).heads = s.heads ∧ (countDrop n sequence s).deliveries = s.deliveries ∧
      (countDrop n sequence s).outbounds = s.outbounds ∧ (countDrop n sequence s).ddr = s.ddr ∧
      (countDrop n sequence s).time = s.time ∧ (countDrop n sequence s).part = s.part ∧
      (countDrop n sequence s).command = s.command ∧ (countDrop n sequence s).wires = s.wires ∧
      (countDrop n sequence s).pending = s.pending ∧ (∀ m, (countDrop n sequence s).port m = s.port m) ∧
      (∀ m, (countDrop n sequence s).credit m = s.credit m) ∧
      (∀ m, (countDrop n sequence s).head m = s.head m) ∧
      (∀ m, (countDrop n sequence s).delivery m = s.delivery m) ∧
      (∀ m, (countDrop n sequence s).outbound m = s.outbound m) ∧
      (∀ m, (countDrop n sequence s).wire m = s.wire m) := by
  simp [countDrop]

@[simp] theorem skipPacket_frame (n : LineId) (whole : Bool) (s : State) :
    (skipPacket n whole s).ports = s.ports ∧ (skipPacket n whole s).credits = s.credits ∧
      (skipPacket n whole s).heads = s.heads ∧ (skipPacket n whole s).deliveries = s.deliveries ∧
      (skipPacket n whole s).outbounds = s.outbounds ∧ (skipPacket n whole s).ddr = s.ddr ∧
      (skipPacket n whole s).time = s.time ∧ (skipPacket n whole s).part = s.part ∧
      (skipPacket n whole s).command = s.command ∧ (skipPacket n whole s).wires = s.wires ∧
      (skipPacket n whole s).pending = s.pending ∧ (∀ m, (skipPacket n whole s).port m = s.port m) ∧
      (∀ m, (skipPacket n whole s).credit m = s.credit m) ∧ (∀ m, (skipPacket n whole s).head m = s.head m) ∧
      (∀ m, (skipPacket n whole s).delivery m = s.delivery m) ∧
      (∀ m, (skipPacket n whole s).outbound m = s.outbound m) ∧ (∀ m, (skipPacket n whole s).wire m = s.wire m) := by
  simp [skipPacket]

@[simp] theorem appendByte_frame (n : LineId) (v : Byte) (s : State) :
    (appendByte n v s).ports = s.ports ∧ (appendByte n v s).credits = s.credits ∧
      (appendByte n v s).heads = s.heads ∧ (appendByte n v s).deliveries = s.deliveries ∧
      (appendByte n v s).outbounds = s.outbounds ∧ (appendByte n v s).time = s.time ∧
      (appendByte n v s).part = s.part ∧ (appendByte n v s).rings = s.rings ∧
      (appendByte n v s).slots = s.slots ∧ (appendByte n v s).held = s.held ∧
      (appendByte n v s).command = s.command ∧ (appendByte n v s).bus = s.bus ∧
      (appendByte n v s).wires = s.wires ∧ (appendByte n v s).pending = s.pending ∧
      (∀ m, (appendByte n v s).port m = s.port m) ∧ (∀ m, (appendByte n v s).credit m = s.credit m) ∧
      (∀ m, (appendByte n v s).head m = s.head m) ∧ (∀ m, (appendByte n v s).delivery m = s.delivery m) ∧
      (∀ m, (appendByte n v s).outbound m = s.outbound m) ∧ (∀ m, (appendByte n v s).wire m = s.wire m) ∧
      (∀ x, (appendByte n v s).ring x = s.ring x) ∧ (∀ x, (appendByte n v s).slot x = s.slot x) := by
  simp [appendByte]

@[simp] theorem cutPacket_frame (n : LineId) (e : IndexEntry) (s : State) :
    (cutPacket n e s).ports = s.ports ∧ (cutPacket n e s).credits = s.credits ∧
      (cutPacket n e s).heads = s.heads ∧ (cutPacket n e s).deliveries = s.deliveries ∧
      (cutPacket n e s).outbounds = s.outbounds ∧ (cutPacket n e s).ddr = s.ddr ∧
      (cutPacket n e s).time = s.time ∧ (cutPacket n e s).part = s.part ∧
      (cutPacket n e s).command = s.command ∧ (cutPacket n e s).wires = s.wires ∧
      (cutPacket n e s).pending = s.pending ∧ (∀ m, (cutPacket n e s).port m = s.port m) ∧
      (∀ m, (cutPacket n e s).credit m = s.credit m) ∧ (∀ m, (cutPacket n e s).head m = s.head m) ∧
      (∀ m, (cutPacket n e s).delivery m = s.delivery m) ∧ (∀ m, (cutPacket n e s).outbound m = s.outbound m) ∧
      (∀ m, (cutPacket n e s).wire m = s.wire m) := by
  simp [cutPacket]

@[simp] theorem fillByte_frame (n : LineId) (v : Byte) (s : State) :
    (fillByte n v s).ports = s.ports ∧ (fillByte n v s).credits = s.credits ∧
      (fillByte n v s).heads = s.heads ∧ (fillByte n v s).deliveries = s.deliveries ∧
      (fillByte n v s).outbounds = s.outbounds ∧ (fillByte n v s).time = s.time ∧
      (fillByte n v s).part = s.part ∧ (fillByte n v s).command = s.command ∧
      (fillByte n v s).wires = s.wires ∧ (fillByte n v s).pending = s.pending ∧
      (∀ m, (fillByte n v s).port m = s.port m) ∧ (∀ m, (fillByte n v s).credit m = s.credit m) ∧
      (∀ m, (fillByte n v s).head m = s.head m) ∧ (∀ m, (fillByte n v s).delivery m = s.delivery m) ∧
      (∀ m, (fillByte n v s).outbound m = s.outbound m) ∧ (∀ m, (fillByte n v s).wire m = s.wire m) := by
  simp only [fillByte]
  repeat' split
  all_goals simp

@[simp] theorem intakeByte_frame (n : LineId) (v : Byte) (s : State) :
    (intakeByte n v s).ports = s.ports ∧ (intakeByte n v s).credits = s.credits ∧
      (intakeByte n v s).heads = s.heads ∧ (intakeByte n v s).deliveries = s.deliveries ∧
      (intakeByte n v s).outbounds = s.outbounds ∧ (intakeByte n v s).time = s.time ∧
      (intakeByte n v s).part = s.part ∧ (intakeByte n v s).command = s.command ∧
      (intakeByte n v s).wires = s.wires ∧ (intakeByte n v s).pending = s.pending ∧
      (∀ m, (intakeByte n v s).port m = s.port m) ∧ (∀ m, (intakeByte n v s).credit m = s.credit m) ∧
      (∀ m, (intakeByte n v s).head m = s.head m) ∧ (∀ m, (intakeByte n v s).delivery m = s.delivery m) ∧
      (∀ m, (intakeByte n v s).outbound m = s.outbound m) ∧ (∀ m, (intakeByte n v s).wire m = s.wire m) := by
  simp only [intakeByte]
  repeat' split
  all_goals simp

@[simp] theorem closePacket_frame (n : LineId) (kind : EndKind) (s : State) :
    (closePacket n kind s).ports = s.ports ∧ (closePacket n kind s).credits = s.credits ∧
      (closePacket n kind s).heads = s.heads ∧ (closePacket n kind s).deliveries = s.deliveries ∧
      (closePacket n kind s).outbounds = s.outbounds ∧ (closePacket n kind s).ddr = s.ddr ∧
      (closePacket n kind s).time = s.time ∧ (closePacket n kind s).part = s.part ∧
      (closePacket n kind s).rings = s.rings ∧ (closePacket n kind s).slots = s.slots ∧
      (closePacket n kind s).held = s.held ∧ (closePacket n kind s).command = s.command ∧
      (closePacket n kind s).bus = s.bus ∧ (closePacket n kind s).wires = s.wires ∧
      (closePacket n kind s).pending = s.pending ∧ (∀ m, (closePacket n kind s).port m = s.port m) ∧
      (∀ m, (closePacket n kind s).credit m = s.credit m) ∧ (∀ m, (closePacket n kind s).head m = s.head m) ∧
      (∀ m, (closePacket n kind s).delivery m = s.delivery m) ∧
      (∀ m, (closePacket n kind s).outbound m = s.outbound m) ∧
      (∀ m, (closePacket n kind s).wire m = s.wire m) ∧ (∀ x, (closePacket n kind s).ring x = s.ring x) ∧
      (∀ x, (closePacket n kind s).slot x = s.slot x) := by
  simp [closePacket]

@[simp] theorem intakeClose_frame (n : LineId) (kind : EndKind) (s : State) :
    (intakeClose n kind s).ports = s.ports ∧ (intakeClose n kind s).ddr = s.ddr ∧
      (intakeClose n kind s).time = s.time ∧ (intakeClose n kind s).part = s.part ∧
      (intakeClose n kind s).wires = s.wires ∧ (intakeClose n kind s).pending = s.pending ∧
      (∀ m, (intakeClose n kind s).port m = s.port m) ∧ (∀ m, (intakeClose n kind s).wire m = s.wire m) := by
  simp only [intakeClose]
  repeat' split
  all_goals simp

@[simp] theorem storeLostRun_frame (n : LineId) (s : State) :
    (storeLostRun n s).ports = s.ports ∧ (storeLostRun n s).credits = s.credits ∧
      (storeLostRun n s).heads = s.heads ∧ (storeLostRun n s).deliveries = s.deliveries ∧
      (storeLostRun n s).outbounds = s.outbounds ∧ (storeLostRun n s).ddr = s.ddr ∧
      (storeLostRun n s).time = s.time ∧ (storeLostRun n s).part = s.part ∧
      (storeLostRun n s).rings = s.rings ∧ (storeLostRun n s).slots = s.slots ∧
      (storeLostRun n s).held = s.held ∧ (storeLostRun n s).command = s.command ∧
      (storeLostRun n s).bus = s.bus ∧ (storeLostRun n s).wires = s.wires ∧
      (storeLostRun n s).pending = s.pending ∧ (∀ m, (storeLostRun n s).port m = s.port m) ∧
      (∀ m, (storeLostRun n s).credit m = s.credit m) ∧ (∀ m, (storeLostRun n s).head m = s.head m) ∧
      (∀ m, (storeLostRun n s).delivery m = s.delivery m) ∧
      (∀ m, (storeLostRun n s).outbound m = s.outbound m) ∧ (∀ m, (storeLostRun n s).wire m = s.wire m) ∧
      (∀ x, (storeLostRun n s).ring x = s.ring x) ∧ (∀ x, (storeLostRun n s).slot x = s.slot x) := by
  simp only [storeLostRun]
  repeat' split
  all_goals simp

@[simp] theorem settleSource_frame (source : Option LineId) (s : State) :
    (settleSource source s).ports = s.ports ∧ (settleSource source s).ddr = s.ddr ∧
      (settleSource source s).time = s.time ∧ (settleSource source s).part = s.part ∧
      (settleSource source s).wires = s.wires ∧ (settleSource source s).pending = s.pending ∧
      (∀ m, (settleSource source s).port m = s.port m) ∧ (∀ m, (settleSource source s).wire m = s.wire m) := by
  simp only [settleSource]
  repeat' split
  all_goals simp

@[simp] theorem loseRun_frame (n : LineId) (s : State) :
    (loseRun n s).ports = s.ports ∧ (loseRun n s).ddr = s.ddr ∧ (loseRun n s).time = s.time ∧
      (loseRun n s).part = s.part ∧ (loseRun n s).wires = s.wires ∧ (loseRun n s).pending = s.pending ∧
      (∀ m, (loseRun n s).port m = s.port m) ∧ (∀ m, (loseRun n s).wire m = s.wire m) := by
  simp [loseRun]

@[simp] theorem leaveLine_frame (n : LineId) (rest : LinePort → LinePort) (notice : Notice) (s : State) :
    (leaveLine n rest notice s).ddr = s.ddr ∧ (leaveLine n rest notice s).time = s.time ∧
      (leaveLine n rest notice s).part = s.part ∧ (leaveLine n rest notice s).wires = s.wires ∧
      (leaveLine n rest notice s).pending = s.pending ∧ (∀ m, (leaveLine n rest notice s).wire m = s.wire m) := by
  simp only [leaveLine]
  repeat' split
  all_goals simp

@[simp] theorem raiseError_frame (n : LineId) (cause : LineCause) (s : State) :
    (raiseError n cause s).ddr = s.ddr ∧ (raiseError n cause s).time = s.time ∧
      (raiseError n cause s).part = s.part ∧ (raiseError n cause s).wires = s.wires ∧
      (raiseError n cause s).pending = s.pending ∧ (∀ m, (raiseError n cause s).wire m = s.wire m) := by
  simp [raiseError]

@[simp] theorem stopLine_frame (n : LineId) (s : State) :
    (stopLine n s).ddr = s.ddr ∧ (stopLine n s).time = s.time ∧ (stopLine n s).part = s.part ∧
      (stopLine n s).wires = s.wires ∧ (stopLine n s).pending = s.pending ∧
      (∀ m, (stopLine n s).wire m = s.wire m) := by
  simp only [stopLine]
  repeat' split
  all_goals simp

@[simp] theorem restartSilence_frame (n : LineId) (s : State) :
    (restartSilence n s).credits = s.credits ∧ (restartSilence n s).stores = s.stores ∧
      (restartSilence n s).heads = s.heads ∧ (restartSilence n s).deliveries = s.deliveries ∧
      (restartSilence n s).outbounds = s.outbounds ∧ (restartSilence n s).ddr = s.ddr ∧
      (restartSilence n s).time = s.time ∧ (restartSilence n s).part = s.part ∧
      (restartSilence n s).rings = s.rings ∧ (restartSilence n s).slots = s.slots ∧
      (restartSilence n s).held = s.held ∧ (restartSilence n s).command = s.command ∧
      (restartSilence n s).bus = s.bus ∧ (restartSilence n s).wires = s.wires ∧
      (restartSilence n s).pending = s.pending ∧ (∀ m, (restartSilence n s).credit m = s.credit m) ∧
      (∀ m, (restartSilence n s).store m = s.store m) ∧ (∀ m, (restartSilence n s).head m = s.head m) ∧
      (∀ m, (restartSilence n s).delivery m = s.delivery m) ∧
      (∀ m, (restartSilence n s).outbound m = s.outbound m) ∧ (∀ m, (restartSilence n s).wire m = s.wire m) ∧
      (∀ x, (restartSilence n s).ring x = s.ring x) ∧ (∀ x, (restartSilence n s).slot x = s.slot x) := by
  simp [restartSilence]

@[simp] theorem enterConnect_frame (n : LineId) (s : State) :
    (enterConnect n s).credits = s.credits ∧ (enterConnect n s).stores = s.stores ∧
      (enterConnect n s).heads = s.heads ∧ (enterConnect n s).deliveries = s.deliveries ∧
      (enterConnect n s).outbounds = s.outbounds ∧ (enterConnect n s).ddr = s.ddr ∧
      (enterConnect n s).time = s.time ∧ (enterConnect n s).part = s.part ∧
      (enterConnect n s).command = s.command ∧ (enterConnect n s).wires = s.wires ∧
      (enterConnect n s).pending = s.pending ∧ (∀ m, (enterConnect n s).credit m = s.credit m) ∧
      (∀ m, (enterConnect n s).store m = s.store m) ∧ (∀ m, (enterConnect n s).head m = s.head m) ∧
      (∀ m, (enterConnect n s).delivery m = s.delivery m) ∧
      (∀ m, (enterConnect n s).outbound m = s.outbound m) ∧ (∀ m, (enterConnect n s).wire m = s.wire m) := by
  simp [enterConnect]

@[simp] theorem enterRun_frame (n : LineId) (s : State) :
    (enterRun n s).heads = s.heads ∧ (enterRun n s).deliveries = s.deliveries ∧ (enterRun n s).ddr = s.ddr ∧
      (enterRun n s).time = s.time ∧ (enterRun n s).part = s.part ∧ (enterRun n s).command = s.command ∧
      (enterRun n s).wires = s.wires ∧ (enterRun n s).pending = s.pending ∧
      (∀ m, (enterRun n s).head m = s.head m) ∧ (∀ m, (enterRun n s).delivery m = s.delivery m) ∧
      (∀ m, (enterRun n s).wire m = s.wire m) := by
  simp [enterRun]

@[simp] theorem receiveGrant_frame (n : LineId) (cells : Nat) (s : State) :
    (receiveGrant n cells s).ddr = s.ddr ∧ (receiveGrant n cells s).time = s.time ∧
      (receiveGrant n cells s).part = s.part ∧ (receiveGrant n cells s).wires = s.wires ∧
      (receiveGrant n cells s).pending = s.pending ∧ (∀ m, (receiveGrant n cells s).wire m = s.wire m) := by
  simp only [receiveGrant]
  repeat' split
  all_goals simp

@[simp] theorem relayMark_frame (source : Option LineId) (v : BitVec 8) (s : State) :
    (relayMark source v s).credits = s.credits ∧ (relayMark source v s).stores = s.stores ∧
      (relayMark source v s).heads = s.heads ∧ (relayMark source v s).deliveries = s.deliveries ∧
      (relayMark source v s).outbounds = s.outbounds ∧ (relayMark source v s).ddr = s.ddr ∧
      (relayMark source v s).time = s.time ∧ (relayMark source v s).part = s.part ∧
      (relayMark source v s).rings = s.rings ∧ (relayMark source v s).slots = s.slots ∧
      (relayMark source v s).held = s.held ∧ (relayMark source v s).command = s.command ∧
      (relayMark source v s).bus = s.bus ∧ (relayMark source v s).wires = s.wires ∧
      (relayMark source v s).pending = s.pending ∧ (∀ m, (relayMark source v s).credit m = s.credit m) ∧
      (∀ m, (relayMark source v s).store m = s.store m) ∧ (∀ m, (relayMark source v s).head m = s.head m) ∧
      (∀ m, (relayMark source v s).delivery m = s.delivery m) ∧
      (∀ m, (relayMark source v s).outbound m = s.outbound m) ∧
      (∀ m, (relayMark source v s).wire m = s.wire m) ∧ (∀ x, (relayMark source v s).ring x = s.ring x) ∧
      (∀ x, (relayMark source v s).slot x = s.slot x) := by
  simp only [relayMark, allLines, List.foldl]
  simp

@[simp] theorem changeEpoch_frame (source : Option LineId) (v : BitVec 8) (skewed : Bool) (s : State) :
    (changeEpoch source v skewed s).credits = s.credits ∧ (changeEpoch source v skewed s).stores = s.stores ∧
      (changeEpoch source v skewed s).heads = s.heads ∧
      (changeEpoch source v skewed s).deliveries = s.deliveries ∧
      (changeEpoch source v skewed s).outbounds = s.outbounds ∧ (changeEpoch source v skewed s).ddr = s.ddr ∧
      (changeEpoch source v skewed s).part = s.part ∧ (changeEpoch source v skewed s).command = s.command ∧
      (changeEpoch source v skewed s).wires = s.wires ∧ (changeEpoch source v skewed s).pending = s.pending ∧
      (∀ m, (changeEpoch source v skewed s).credit m = s.credit m) ∧
      (∀ m, (changeEpoch source v skewed s).store m = s.store m) ∧
      (∀ m, (changeEpoch source v skewed s).head m = s.head m) ∧
      (∀ m, (changeEpoch source v skewed s).delivery m = s.delivery m) ∧
      (∀ m, (changeEpoch source v skewed s).outbound m = s.outbound m) ∧
      (∀ m, (changeEpoch source v skewed s).wire m = s.wire m) := by
  simp only [changeEpoch]
  repeat' split
  all_goals simp

@[simp] theorem receiveMark_frame (n : LineId) (v : Byte) (s : State) :
    (receiveMark n v s).credits = s.credits ∧ (receiveMark n v s).stores = s.stores ∧
      (receiveMark n v s).heads = s.heads ∧ (receiveMark n v s).deliveries = s.deliveries ∧
      (receiveMark n v s).outbounds = s.outbounds ∧ (receiveMark n v s).ddr = s.ddr ∧
      (receiveMark n v s).part = s.part ∧ (receiveMark n v s).command = s.command ∧
      (receiveMark n v s).wires = s.wires ∧ (receiveMark n v s).pending = s.pending ∧
      (∀ m, (receiveMark n v s).credit m = s.credit m) ∧ (∀ m, (receiveMark n v s).store m = s.store m) ∧
      (∀ m, (receiveMark n v s).head m = s.head m) ∧ (∀ m, (receiveMark n v s).delivery m = s.delivery m) ∧
      (∀ m, (receiveMark n v s).outbound m = s.outbound m) ∧ (∀ m, (receiveMark n v s).wire m = s.wire m) := by
  simp only [receiveMark]
  repeat' split
  all_goals simp

@[simp] theorem cutSilently_frame (n : LineId) (s : State) :
    (cutSilently n s).ports = s.ports ∧ (cutSilently n s).credits = s.credits ∧
      (cutSilently n s).heads = s.heads ∧ (cutSilently n s).deliveries = s.deliveries ∧
      (cutSilently n s).ddr = s.ddr ∧ (cutSilently n s).time = s.time ∧ (cutSilently n s).part = s.part ∧
      (cutSilently n s).rings = s.rings ∧ (cutSilently n s).slots = s.slots ∧ (cutSilently n s).held = s.held ∧
      (cutSilently n s).command = s.command ∧ (cutSilently n s).bus = s.bus ∧
      (cutSilently n s).wires = s.wires ∧ (cutSilently n s).pending = s.pending ∧
      (∀ m, (cutSilently n s).port m = s.port m) ∧ (∀ m, (cutSilently n s).credit m = s.credit m) ∧
      (∀ m, (cutSilently n s).head m = s.head m) ∧ (∀ m, (cutSilently n s).delivery m = s.delivery m) ∧
      (∀ m, (cutSilently n s).wire m = s.wire m) ∧ (∀ x, (cutSilently n s).ring x = s.ring x) ∧
      (∀ x, (cutSilently n s).slot x = s.slot x) := by
  simp only [cutSilently]
  repeat' split
  all_goals simp

@[simp] theorem faultLine_frame (n : LineId) (s : State) :
    (faultLine n s).deliveries = s.deliveries ∧ (faultLine n s).ddr = s.ddr ∧ (faultLine n s).time = s.time ∧
      (faultLine n s).part = s.part ∧ (faultLine n s).rings = s.rings ∧ (faultLine n s).slots = s.slots ∧
      (faultLine n s).held = s.held ∧ (faultLine n s).command = s.command ∧ (faultLine n s).bus = s.bus ∧
      (faultLine n s).wires = s.wires ∧ (faultLine n s).pending = s.pending ∧
      (∀ m, (faultLine n s).delivery m = s.delivery m) ∧ (∀ m, (faultLine n s).wire m = s.wire m) ∧
      (∀ x, (faultLine n s).ring x = s.ring x) ∧ (∀ x, (faultLine n s).slot x = s.slot x) := by
  simp only [faultLine]
  repeat' split
  all_goals simp

@[simp] theorem enterFaulted_frame (cause : FaultCause) (detail : BitVec 8) (s : State) :
    (enterFaulted cause detail s).deliveries = s.deliveries ∧ (enterFaulted cause detail s).ddr = s.ddr ∧
      (enterFaulted cause detail s).time = s.time ∧ (enterFaulted cause detail s).rings = s.rings ∧
      (enterFaulted cause detail s).slots = s.slots ∧ (enterFaulted cause detail s).held = s.held ∧
      (enterFaulted cause detail s).command = s.command ∧ (enterFaulted cause detail s).bus = s.bus ∧
      (enterFaulted cause detail s).wires = s.wires ∧ (enterFaulted cause detail s).pending = s.pending ∧
      (∀ m, (enterFaulted cause detail s).delivery m = s.delivery m) ∧
      (∀ m, (enterFaulted cause detail s).wire m = s.wire m) ∧
      (∀ x, (enterFaulted cause detail s).ring x = s.ring x) ∧
      (∀ x, (enterFaulted cause detail s).slot x = s.slot x) := by
  simp only [enterFaulted, allLines, List.foldl]
  simp

@[simp] theorem enterListen_frame (n : LineId) (s : State) :
    (enterListen n s).credits = s.credits ∧ (enterListen n s).stores = s.stores ∧
      (enterListen n s).heads = s.heads ∧ (enterListen n s).deliveries = s.deliveries ∧
      (enterListen n s).outbounds = s.outbounds ∧ (enterListen n s).ddr = s.ddr ∧
      (enterListen n s).time = s.time ∧ (enterListen n s).part = s.part ∧
      (enterListen n s).command = s.command ∧ (enterListen n s).wires = s.wires ∧
      (enterListen n s).pending = s.pending ∧ (∀ m, (enterListen n s).credit m = s.credit m) ∧
      (∀ m, (enterListen n s).store m = s.store m) ∧ (∀ m, (enterListen n s).head m = s.head m) ∧
      (∀ m, (enterListen n s).delivery m = s.delivery m) ∧ (∀ m, (enterListen n s).outbound m = s.outbound m) ∧
      (∀ m, (enterListen n s).wire m = s.wire m) := by
  simp [enterListen]

@[simp] theorem configureLine_frame (n : LineId) (e : Record) (s : State) :
    (configureLine n e s).credits = s.credits ∧ (configureLine n e s).deliveries = s.deliveries ∧
      (configureLine n e s).ddr = s.ddr ∧ (configureLine n e s).time = s.time ∧
      (configureLine n e s).part = s.part ∧ (configureLine n e s).rings = s.rings ∧
      (configureLine n e s).slots = s.slots ∧ (configureLine n e s).held = s.held ∧
      (configureLine n e s).command = s.command ∧ (configureLine n e s).wires = s.wires ∧
      (configureLine n e s).pending = s.pending ∧ (∀ m, (configureLine n e s).credit m = s.credit m) ∧
      (∀ m, (configureLine n e s).delivery m = s.delivery m) ∧ (∀ m, (configureLine n e s).wire m = s.wire m) ∧
      (∀ x, (configureLine n e s).ring x = s.ring x) ∧ (∀ x, (configureLine n e s).slot x = s.slot x) := by
  simp [configureLine]

@[simp] theorem beginLoad_frame (s : State) :
    (beginLoad s).deliveries = s.deliveries ∧ (beginLoad s).ddr = s.ddr ∧ (beginLoad s).time = s.time ∧
      (beginLoad s).rings = s.rings ∧ (beginLoad s).slots = s.slots ∧ (beginLoad s).held = s.held ∧
      (beginLoad s).command = s.command ∧ (beginLoad s).wires = s.wires ∧ (beginLoad s).pending = s.pending ∧
      (∀ m, (beginLoad s).delivery m = s.delivery m) ∧ (∀ m, (beginLoad s).wire m = s.wire m) ∧
      (∀ x, (beginLoad s).ring x = s.ring x) ∧ (∀ x, (beginLoad s).slot x = s.slot x) := by
  simp only [beginLoad]
  repeat' split
  all_goals simp

@[simp] theorem rejectPost_frame (w : BitVec 32) (reason : PostReason) (producer consumer : BitVec 16) (s : State) :
    (rejectPost w reason producer consumer s).ports = s.ports ∧
      (rejectPost w reason producer consumer s).credits = s.credits ∧
      (rejectPost w reason producer consumer s).stores = s.stores ∧
      (rejectPost w reason producer consumer s).heads = s.heads ∧
      (rejectPost w reason producer consumer s).deliveries = s.deliveries ∧
      (rejectPost w reason producer consumer s).outbounds = s.outbounds ∧
      (rejectPost w reason producer consumer s).ddr = s.ddr ∧
      (rejectPost w reason producer consumer s).time = s.time ∧
      (rejectPost w reason producer consumer s).part = s.part ∧
      (rejectPost w reason producer consumer s).command = s.command ∧
      (rejectPost w reason producer consumer s).wires = s.wires ∧
      (rejectPost w reason producer consumer s).pending = s.pending ∧
      (∀ m, (rejectPost w reason producer consumer s).port m = s.port m) ∧
      (∀ m, (rejectPost w reason producer consumer s).credit m = s.credit m) ∧
      (∀ m, (rejectPost w reason producer consumer s).store m = s.store m) ∧
      (∀ m, (rejectPost w reason producer consumer s).head m = s.head m) ∧
      (∀ m, (rejectPost w reason producer consumer s).delivery m = s.delivery m) ∧
      (∀ m, (rejectPost w reason producer consumer s).outbound m = s.outbound m) ∧
      (∀ m, (rejectPost w reason producer consumer s).wire m = s.wire m) := by
  simp [rejectPost]

@[simp] theorem wakeReader_frame (r : RingId) (s : State) :
    (wakeReader r s).ports = s.ports ∧ (wakeReader r s).credits = s.credits ∧
      (wakeReader r s).stores = s.stores ∧ (wakeReader r s).heads = s.heads ∧
      (wakeReader r s).deliveries = s.deliveries ∧ (wakeReader r s).ddr = s.ddr ∧
      (wakeReader r s).time = s.time ∧ (wakeReader r s).part = s.part ∧ (wakeReader r s).rings = s.rings ∧
      (wakeReader r s).held = s.held ∧ (wakeReader r s).wires = s.wires ∧
      (wakeReader r s).pending = s.pending ∧ (∀ m, (wakeReader r s).port m = s.port m) ∧
      (∀ m, (wakeReader r s).credit m = s.credit m) ∧ (∀ m, (wakeReader r s).store m = s.store m) ∧
      (∀ m, (wakeReader r s).head m = s.head m) ∧ (∀ m, (wakeReader r s).delivery m = s.delivery m) ∧
      (∀ m, (wakeReader r s).wire m = s.wire m) ∧ (∀ x, (wakeReader r s).ring x = s.ring x) := by
  simp only [wakeReader]
  repeat' split
  all_goals simp

@[simp] theorem armRing_frame (p : PartRing) (s : State) :
    (armRing p s).ports = s.ports ∧ (armRing p s).credits = s.credits ∧ (armRing p s).stores = s.stores ∧
      (armRing p s).heads = s.heads ∧ (armRing p s).deliveries = s.deliveries ∧
      (armRing p s).outbounds = s.outbounds ∧ (armRing p s).ddr = s.ddr ∧ (armRing p s).time = s.time ∧
      (armRing p s).part = s.part ∧ (armRing p s).rings = s.rings ∧ (armRing p s).held = s.held ∧
      (armRing p s).command = s.command ∧ (armRing p s).wires = s.wires ∧ (armRing p s).pending = s.pending ∧
      (∀ m, (armRing p s).port m = s.port m) ∧ (∀ m, (armRing p s).credit m = s.credit m) ∧
      (∀ m, (armRing p s).store m = s.store m) ∧ (∀ m, (armRing p s).head m = s.head m) ∧
      (∀ m, (armRing p s).delivery m = s.delivery m) ∧ (∀ m, (armRing p s).outbound m = s.outbound m) ∧
      (∀ m, (armRing p s).wire m = s.wire m) ∧ (∀ x, (armRing p s).ring x = s.ring x) := by
  simp only [armRing]
  repeat' split
  all_goals simp

@[simp] theorem postToHostRing_frame (r : RingId) (w : BitVec 32) (s : State) :
    (postToHostRing r w s).ports = s.ports ∧ (postToHostRing r w s).credits = s.credits ∧
      (postToHostRing r w s).stores = s.stores ∧ (postToHostRing r w s).heads = s.heads ∧
      (postToHostRing r w s).deliveries = s.deliveries ∧ (postToHostRing r w s).ddr = s.ddr ∧
      (postToHostRing r w s).time = s.time ∧ (postToHostRing r w s).part = s.part ∧
      (postToHostRing r w s).wires = s.wires ∧ (postToHostRing r w s).pending = s.pending ∧
      (∀ m, (postToHostRing r w s).port m = s.port m) ∧ (∀ m, (postToHostRing r w s).credit m = s.credit m) ∧
      (∀ m, (postToHostRing r w s).store m = s.store m) ∧ (∀ m, (postToHostRing r w s).head m = s.head m) ∧
      (∀ m, (postToHostRing r w s).delivery m = s.delivery m) ∧ (∀ m, (postToHostRing r w s).wire m = s.wire m) := by
  simp only [postToHostRing]
  repeat' split
  all_goals simp

@[simp] theorem postToPartRing_frame (p : PartRing) (w : BitVec 32) (s : State) :
    (postToPartRing p w s).ports = s.ports ∧ (postToPartRing p w s).credits = s.credits ∧
      (postToPartRing p w s).stores = s.stores ∧ (postToPartRing p w s).heads = s.heads ∧
      (postToPartRing p w s).deliveries = s.deliveries ∧ (postToPartRing p w s).outbounds = s.outbounds ∧
      (postToPartRing p w s).ddr = s.ddr ∧ (postToPartRing p w s).time = s.time ∧
      (postToPartRing p w s).part = s.part ∧ (postToPartRing p w s).command = s.command ∧
      (postToPartRing p w s).wires = s.wires ∧ (postToPartRing p w s).pending = s.pending ∧
      (∀ m, (postToPartRing p w s).port m = s.port m) ∧ (∀ m, (postToPartRing p w s).credit m = s.credit m) ∧
      (∀ m, (postToPartRing p w s).store m = s.store m) ∧ (∀ m, (postToPartRing p w s).head m = s.head m) ∧
      (∀ m, (postToPartRing p w s).delivery m = s.delivery m) ∧
      (∀ m, (postToPartRing p w s).outbound m = s.outbound m) ∧ (∀ m, (postToPartRing p w s).wire m = s.wire m) := by
  simp only [postToPartRing]
  repeat' split
  all_goals simp

end Sys2Proof.Machine
end

