-- ==== Sys2Proof/Laws/Memory.lean ====
section
/-! SUPPORT. The DDR memory: a byte reads as it was last written, and every operation keeps the canonical form. -/

namespace Sys2Proof.Machine

/-! ## Bytes -/

/-- Below the first address listed every byte reads as 0. -/
theorem cellRead_below {cells : List Host.Cell} {low x : Nat} (wf : cellsFrom low cells = true) (h : x < low) :
    cellRead cells x = 0 := by
  cases cells with
  | nil => rfl
  | cons c rest =>
    obtain ⟨a, b⟩ := c
    simp only [cellsFrom, Bool.and_eq_true, decide_eq_true_eq] at wf
    simp [cellRead, show x ≠ a by omega, show x < a by omega]

/-- A read after a write gives the value written at its address, and every other byte as before. -/
theorem cellRead_cellWrite (cells : List Host.Cell) (low a x : Nat) (v : Byte) (wf : cellsFrom low cells = true) :
    cellRead (cellWrite cells a v) x = if x = a then v else cellRead cells x := by
  induction cells generalizing low with
  | nil => by_cases hv : v = 0#8 <;> by_cases hx : x = a <;> simp [cellWrite, cellRead, hv, hx]
  | cons c rest ih =>
    obtain ⟨p, b⟩ := c
    simp only [cellsFrom, Bool.and_eq_true, decide_eq_true_eq] at wf
    obtain ⟨⟨hlow, hb⟩, hrest⟩ := wf
    have below : x ≤ p → cellRead rest x = 0 := fun h => cellRead_below hrest (by omega)
    simp only [cellWrite]
    split
    · rename_i hap
      by_cases hx : x = a
      · subst hx
        by_cases hv : v = 0#8 <;> simp [cellRead, hv, hap, show x ≠ p by omega]
      · by_cases hv : v = 0#8 <;> by_cases hxa : x < a <;>
          simp [cellRead, hv, hx, hxa, show x < a → x < p by omega, show x < a → x ≠ p by omega]
    · split
      · rename_i hap
        subst hap
        by_cases hv : v = 0#8 <;> by_cases hx : x = a
        · subst hx; simp [hv, below]
        · by_cases hxa : x < a <;> simp [cellRead, hv, hx, hxa, below, show x < a → x ≤ a by omega]
        · simp [cellRead, hv, hx]
        · simp [cellRead, hv, hx]
      · rename_i hap hne
        by_cases hx : x = p
        · simp [cellRead, hx, show p ≠ a from fun h => hne h.symm]
        · by_cases hxp : x < p
          · simp [cellRead, hx, hxp, show x ≠ a by omega]
          · simp [cellRead, hx, hxp, ih _ hrest]

/-- A write keeps the addresses rising with no byte 0. -/
theorem cellsFrom_cellWrite {cells : List Host.Cell} {low a : Nat} (v : Byte) (wf : cellsFrom low cells = true) (h : low ≤ a) :
    cellsFrom low (cellWrite cells a v) = true := by
  have weaken : ∀ (cs : List Host.Cell) (k l : Nat), k ≤ l → cellsFrom l cs = true → cellsFrom k cs = true := by
    intro cs k l hkl hl
    cases cs with
    | nil => rfl
    | cons c rest =>
      simp only [cellsFrom, Bool.and_eq_true, decide_eq_true_eq] at hl ⊢
      exact ⟨⟨by omega, hl.1.2⟩, hl.2⟩
  induction cells generalizing low with
  | nil => by_cases hv : v = 0#8 <;> simp [cellWrite, cellsFrom, hv, h]
  | cons c rest ih =>
    obtain ⟨p, b⟩ := c
    have whole := wf
    simp only [cellsFrom, Bool.and_eq_true, decide_eq_true_eq] at wf
    obtain ⟨⟨hlow, hb⟩, hrest⟩ := wf
    simp only [cellWrite]
    split
    · rename_i hap
      by_cases hv : v = 0
      · simpa [hv] using whole
      · simp only [hv, if_false, cellsFrom, Bool.and_eq_true, decide_eq_true_eq]
        refine ⟨⟨h, ?_⟩, ⟨by omega, hb⟩, hrest⟩
        simpa using hv
    · split
      · rename_i hap
        by_cases hv : v = 0
        · simpa [hv] using weaken _ _ _ (by omega) hrest
        · simp only [hv, if_false, cellsFrom, Bool.and_eq_true, decide_eq_true_eq]
          refine ⟨⟨hlow, ?_⟩, hrest⟩
          simpa using hv
      · simp only [cellsFrom, Bool.and_eq_true, decide_eq_true_eq]
        exact ⟨⟨hlow, hb⟩, ih hrest (by omega)⟩

/-- A write lists no address but its own and those listed before. -/
theorem mem_cellWrite {cells : List Host.Cell} {a : Nat} {v : Byte} {c : Host.Cell} (h : c ∈ cellWrite cells a v) :
    c.1 = a ∨ c ∈ cells := by
  induction cells with
  | nil =>
    by_cases hv : v = 0#8 <;> simp [cellWrite, hv] at h
    exact .inl (by rw [h])
  | cons d rest ih =>
    obtain ⟨p, b⟩ := d
    simp only [cellWrite] at h
    split at h
    · split at h
      · exact .inr h
      · rcases List.mem_cons.1 h with h | h
        · exact .inl (by rw [h])
        · exact .inr h
    · split at h
      · rename_i hap
        split at h
        · exact .inr (List.mem_cons_of_mem _ h)
        · rcases List.mem_cons.1 h with h | h
          · exact .inl (by rw [h, hap])
          · exact .inr (List.mem_cons_of_mem _ h)
      · rcases List.mem_cons.1 h with h | h
        · exact .inr (by rw [h]; exact List.mem_cons_self)
        · rcases ih h with h | h
          · exact .inl h
          · exact .inr (List.mem_cons_of_mem _ h)

/-! ## Uncorrectable words -/

/-- Marking a word keeps the numbers rising. -/
theorem numbersFrom_insertNumber {ws : List Nat} {low w : Nat} (wf : numbersFrom low ws = true) (h : low ≤ w) :
    numbersFrom low (insertNumber ws w) = true := by
  induction ws generalizing low with
  | nil => simp [insertNumber, numbersFrom, h]
  | cons a rest ih =>
    have whole := wf
    simp only [numbersFrom, Bool.and_eq_true, decide_eq_true_eq] at wf
    simp only [insertNumber]
    split
    · simp only [numbersFrom, Bool.and_eq_true, decide_eq_true_eq]
      exact ⟨h, by omega, wf.2⟩
    · split
      · exact whole
      · simp only [numbersFrom, Bool.and_eq_true, decide_eq_true_eq]
        exact ⟨wf.1, ih wf.2 (by omega)⟩

/-- The words marked after marking one: that word, and those marked before. -/
@[simp] theorem mem_insertNumber {ws : List Nat} {w x : Nat} : x ∈ insertNumber ws w ↔ x = w ∨ x ∈ ws := by
  induction ws with
  | nil => simp [insertNumber]
  | cons a rest ih =>
    simp only [insertNumber]
    split
    · simp
    · split
      · rename_i h
        subst h
        simp
      · simp only [List.mem_cons, ih]
        tauto

/-! ## The memory as a whole -/

/-- What a good memory is, part by part. -/
theorem Ddr.wf_iff (d : Ddr) :
    d.wf = true ↔ cellsFrom 0 d.cells = true ∧ (∀ c ∈ d.cells, c.1 < Config.ddrSize) ∧ numbersFrom 0 d.badWords = true
      ∧ ∀ w ∈ d.badWords, w < Config.ddrSize / 8 := by
  simp [Ddr.wf, and_assoc]

/-- A write within the memory keeps its form. -/
theorem Ddr.wf_write {d : Ddr} {a : Nat} (v : Byte) (h : d.wf = true) (ha : a < Config.ddrSize) : (d.write a v).wf = true := by
  rw [Ddr.wf_iff] at h ⊢
  refine ⟨cellsFrom_cellWrite v h.1 (Nat.zero_le a), ?_, h.2.2⟩
  intro c hc
  rcases mem_cellWrite hc with e | m
  · omega
  · exact h.2.1 c m

/-- Marking a word of the memory keeps its form. -/
theorem Ddr.wf_corrupt {d : Ddr} {w : Nat} (h : d.wf = true) (hw : w < Config.ddrSize / 8) : (d.corrupt w).wf = true := by
  rw [Ddr.wf_iff] at h ⊢
  refine ⟨h.1, h.2.1, numbersFrom_insertNumber h.2.2.1 (Nat.zero_le w), ?_⟩
  intro x hx
  rcases mem_insertNumber.1 hx with e | m
  · omega
  · exact h.2.2.2 x m

/-- Counting the bytes read keeps the form. -/
@[simp] theorem Ddr.wf_noteRead (d : Ddr) (addresses : List Nat) : (d.noteRead addresses).wf = d.wf := rfl

/-- Clearing every mark keeps the form. -/
theorem Ddr.wf_sound {d : Ddr} (h : d.wf = true) : ({ d with badWords := [] } : Ddr).wf = true := by
  rw [Ddr.wf_iff] at h ⊢
  exact ⟨h.1, h.2.1, rfl, by simp⟩

/-- An address of a store lies within the memory (R43). -/
theorem Store.address_lt (st : Store) (offset : Nat) : st.address offset < Config.ddrSize :=
  Nat.mod_lt _ (by decide)

/-- The addresses of a run lie within the memory. -/
theorem Store.run_lt {st : Store} {start length a : Nat} (h : a ∈ st.run start length) : a < Config.ddrSize := by
  simp only [Store.run, List.mem_map] at h
  obtain ⟨k, -, rfl⟩ := h
  exact st.address_lt _

/-- A run has an address for each byte. -/
@[simp] theorem Store.run_length (st : Store) (start length : Nat) : (st.run start length).length = length := by
  simp [Store.run]

/-- Writing a list of bytes within the memory keeps its form. -/
theorem Ddr.wf_writes (writes : List (Nat × Byte)) {d : Ddr} (h : d.wf = true) (hw : ∀ p ∈ writes, p.1 < Config.ddrSize) :
    (writes.foldl (fun m p => m.write p.1 p.2) d).wf = true := by
  induction writes generalizing d with
  | nil => exact h
  | cons p rest ih =>
    exact ih (Ddr.wf_write p.2 h (hw p List.mem_cons_self)) (fun q hq => hw q (List.mem_cons_of_mem _ hq))

/-- A move within the memory keeps its form (R62). -/
theorem Ddr.wf_move {d : Ddr} {sources destinations : List Nat} (h : d.wf = true)
    (hd : ∀ a ∈ destinations, a < Config.ddrSize) : (d.move sources destinations).wf = true := by
  have marks : ∀ (pairs : List (Nat × Nat)) (m : Ddr), m.wf = true → (∀ p ∈ pairs, p.2 < Config.ddrSize / 8) →
      (pairs.foldl (fun m p => if d.badWords.contains p.1 then m.corrupt p.2 else m) m).wf = true := by
    intro pairs
    induction pairs with
    | nil => exact fun m hm _ => hm
    | cons p rest ih =>
      intro m hm hp
      refine ih _ ?_ (fun q hq => hp q (List.mem_cons_of_mem _ hq))
      dsimp only
      split
      · exact Ddr.wf_corrupt hm (hp p List.mem_cons_self)
      · exact hm
  refine marks _ _ (Ddr.wf_writes _ h ?_) ?_
  · intro p hp
    exact hd _ (List.of_mem_zip hp).1
  · intro p hp
    simp only [movedWords, List.mem_map] at hp
    obtain ⟨q, hq, rfl⟩ := hp
    have := hd _ (List.of_mem_zip hq).2
    simp only [Config.ddrSize] at this ⊢
    omega

/-- The memory after power-on is in form. -/
theorem reset_ddr_wf : State.reset.ddr.wf = true := rfl

/-- The bytes a read returns are as many as its addresses. -/
@[simp] theorem ddrBytes_length (d : Ddr) (k : Nat) (addresses : List Nat) : (ddrBytes d k addresses).length = addresses.length := by
  induction addresses generalizing k with
  | nil => rfl
  | cons a rest ih =>
    simp only [ddrBytes]
    split <;> simp [ih]

/-- A byte read from a sound word is the byte the memory holds (R60). -/
theorem ddrBytes_sound (d : Ddr) (n : Nat) (addresses : List Nat) (k a : Nat) (h : addresses[k]? = some a)
    (hb : d.bad a = false) : (ddrBytes d n addresses)[k]? = some (cellRead d.cells a) := by
  induction addresses generalizing k n with
  | nil => simp at h
  | cons x rest ih =>
    cases k with
    | zero =>
      simp only [List.getElem?_cons_zero, Option.some.injEq] at h
      subst h
      simp [ddrBytes, hb]
    | succ k =>
      simp only [List.getElem?_cons_succ] at h
      simp only [ddrBytes]
      split <;> simpa using ih _ _ h

end Sys2Proof.Machine
end

