-- ==== Sys2Proof/Laws/Ops.lean ====
section
/-! SUPPORT. What the shared operations of the rings, the slots, the notice writer and the register window do, said once for each. -/

namespace Sys2Proof.Machine

@[simp] theorem partRingOf_partRingId (p : PartRing) : partRingOf (partRingId p) = some p := by cases p <;> rfl

theorem partRingId_of_partRingOf {r : RingId} {p : PartRing} (h : partRingOf r = some p) : partRingId p = r := by
  cases r <;> simp [partRingOf] at h <;> subst h <;> rfl

@[simp] theorem partRingId_inj {p q : PartRing} : partRingId p = partRingId q ↔ p = q := by
  cases p <;> cases q <;> simp [partRingId]

/-- A POST in RUNNING that names a part-written ring is that ring's POST (R165). -/
theorem writePost_part {w : BitVec 32} {p : PartRing} {s : State} (hr : s.part.state = .running)
    (hp : postRing w = some (partRingId p)) : writePost w s = postToPartRing p w s := by
  simp [writePost, whenRunning, hr, hp]

/-- A POST in RUNNING that names a host-written ring is that ring's POST (R165). -/
theorem writePost_host {w : BitVec 32} {r : RingId} {s : State} (hr : s.part.state = .running)
    (hp : postRing w = some r) (hn : partRingOf r = none) : writePost w s = postToHostRing r w s := by
  simp [writePost, whenRunning, hr, hp, hn]

/-- A POST in RUNNING that names no ring is rejected with NO_RING (R165). -/
theorem writePost_noRing {w : BitVec 32} {s : State} (hr : s.part.state = .running) (hp : postRing w = none) :
    writePost w s = rejectPost w .noRing 0 0 s := by
  simp [writePost, whenRunning, hr, hp]

/-- The arm bit leaves the ring named as it is. -/
theorem postRing_arm (w : BitVec 32) : postRing (w ||| 0x00100000) = postRing w := by
  simp only [postRing, postRingField]
  congr 2
  ext i hi
  simp
  interval_cases i <;> simp

/-- The arm bit leaves the index as it is. -/
theorem postIndex_arm (w : BitVec 32) : postIndex (w ||| 0x00100000) = postIndex w := by
  simp only [postIndex]
  ext i hi
  simp
  interval_cases i <;> simp

/-- The arm bit is the arm request. -/
theorem postArmRequest_arm (w : BitVec 32) : postArmRequest (w ||| 0x00100000) = true := by simp [postArmRequest]

/-- What writing an entry does (R172). -/
theorem writeEntry_eq (p : PartRing) (bytes : List Byte) (s : State) :
    writeEntry p bytes s =
      { s with
        rings := s.rings.upd (partRingId p) (fun g => { g with producer := g.producer + 1 }),
        slots := s.slots.upd p (fun a => { a with armed := false }),
        bus := s.bus
          ++ [.entry ((s.ring (partRingId p)).slotAddress (s.ring (partRingId p)).producer) (recordOf bytes),
            .progressIndex (s.part.progress + BitVec.ofNat 64 (2 * ringNumber (partRingId p)))
              ((s.ring (partRingId p)).producer + 1)]
          ++ (if (s.slot p).armed then [.interrupt (s.ring (partRingId p)).vector] else []) } := by
  have shown : shownIndex (partRingId p)
      ((s.rings.upd (partRingId p) (fun g => { g with producer := g.producer + 1 })).get (partRingId p))
        = (s.ring (partRingId p)).producer + 1 := by
    rw [ringTable_get_upd]
    simp [shownIndex, State.ring]
  have clear : (s.slot p).armed = false → s.slots.upd p (fun a => { a with armed := false }) = s.slots := by
    intro h
    cases p with
    | notice =>
      simp only [State.slot, SlotTable.get] at h
      simp [SlotTable.upd, ← h]
    | completion n =>
      simp only [State.slot, SlotTable.get] at h
      simp only [SlotTable.upd]
      congr 1
      cases n <;> simp_all [PerLine.upd, PerLine.get, ← h]
  simp only [writeEntry]
  split
  · rename_i h
    simp only [sendVector, writeProgress, issue, updRing, updSlots]
    congr 1
    simp only [State.ring, shown, List.append_assoc, List.cons_append, List.nil_append]
    rw [ringTable_get_upd]
    simp
  · rename_i h
    simp only [Bool.not_eq_true] at h
    simp only [writeProgress, issue, updRing, clear h]
    simp only [State.ring, shown, List.append_assoc, List.cons_append, List.nil_append]

/-- A notice written at once (R174). -/
theorem postNotice_written {nt : Notice} {s : State} (h : s.held = []) (free : 1 ≤ freeSlots .notice s) :
    postNotice nt s = writeEntry .notice (noticeBytes nt 0) s := by
  simp [postNotice, h, free]

/-- A notice that joins the set (R174). -/
theorem postNotice_held {nt : Notice} {s : State} (h : s.held ≠ [] ∨ freeSlots .notice s = 0) :
    postNotice nt s = setHeld (holdNotice nt s.held) s := by
  rcases h with h | h <;> simp [postNotice, h]

/-! ## The register window (R154) -/

/-- A register's four bytes lie at its offset and the three after it. -/
theorem windowByte_offset (r : WindowRegister) {k : Nat} (hk : k < 4) : windowByte (windowOffset r + k) = some (r, k) := by
  obtain rfl | rfl | rfl | rfl : k = 0 ∨ k = 1 ∨ k = 2 ∨ k = 3 := by omega
  all_goals cases r <;> rfl

/-! ## Store faults and entry to FAULTED -/

/-- The word of a region offset begins at a multiple of 8, at most 7 before it (R44, R60). -/
theorem wordOffset_spec (st : Store) (o : Nat) :
    wordOffset st o % 8 = 0 ∧ wordOffset st o ≤ o % st.size ∧ o % st.size < wordOffset st o + 8 := by
  unfold wordOffset
  omega

/-- At entry to FAULTED a line has no packet in transmission any more (R24). -/
@[simp] theorem cutSilently_transmission (n : LineId) (s : State) : ((cutSilently n s).outbound n).transmission = .none := by
  unfold cutSilently
  split <;> rename_i h
  · simp [clearTransmission]
  · simp [clearTransmission]
  · exact h

end Sys2Proof.Machine
end

