-- ==== Sys2Proof/Tests/Slice0.lean ====
section
/-! SUPPORT. Our own tests. The first part checks decoding, forms and commands against the manual's tables and worked examples, one step
at a time; the second shows, for each statement with hypotheses, a state and operands that meet them. -/

namespace Sys2Proof.Tests

open Sys2Proof Sys2Proof.Machine

/-! ## States -/

/-- A ring of 8 entries, its base and vector made from its number. -/
def ringAt (k : Nat) : Ring := ⟨BitVec.ofNat 64 (4096 * (k + 1)), 8, BitVec.ofNat 8 k, 0, 0⟩

/-- Fourteen empty rings. -/
def rings : RingTable :=
  ⟨ringAt 0, ringAt 1, ⟨ringAt 2, ringAt 3, ringAt 4, ringAt 5⟩, ⟨ringAt 6, ringAt 7, ringAt 8, ringAt 9⟩,
    ⟨ringAt 10, ringAt 11, ringAt 12, ringAt 13⟩⟩

/-- The part in RUNNING with every line in OFF. -/
def running : State :=
  { State.reset with part := { PartUnit.reset with state := .running, progress := 0x100000 }, rings := rings }

/-- L1 in a state, configured with a 64 KiB store at 128 KiB, and every timer of the port at its end. -/
def lineIn (x : LineState) : State :=
  updStore .l1 (fun st => { st with base := 131072, size := 65536 })
    (updPort .l1
      (fun p => { p with state := x, configured := true, silence := some 0, handshake := some 0, quiet := some 0 }) running)

/-- L1 in RUN with 16 characters of credit each way. -/
def up : State := updCredit .l1 (fun _ => ⟨16, 16, none⟩) (lineIn .run)

/-- A complete packet of a length. -/
def packet (q : BitVec 16) (length : Nat) (tag : Option Byte) : IndexEntry :=
  ⟨q, .complete, 100, length, length, tag, false, some .good, ⟨1, 2⟩, none, .absent, .absent⟩

/-- A packet that is still arriving. -/
def arriving : IndexEntry := ⟨6, .arriving, 200, 4, 4, some 9, false, none, ⟨1, 2⟩, none, .absent, .absent⟩

/-- A head decided DELIVER whose delivery runs. -/
def delivering : IndexEntry := { packet 5 30 (some 9) with disposition := some ⟨.deliver, .l0, false⟩, delivery := .active }

/-- A head decided FORWARD to L2 that waits at its arbiter. -/
def forwarding : IndexEntry := { packet 5 30 (some 9) with disposition := some ⟨.forward, .l2, false⟩, forward := .pending }

/-- L1's index. -/
def indexed (index : List IndexEntry) (s : State) : State :=
  updStore .l1 (fun st => { st with index := index, occupied := storedSum index, readOffset := 100, writeOffset := 300 }) s

/-- L1's intake. -/
def intaking (i : Intake) (s : State) : State := updStore .l1 (fun st => { st with intake := i }) s

/-- L1's delivery engine in a state with 22 of 30 bytes to go. -/
def delivery (x : DeliveryState) (s : State) : State :=
  updDelivery .l1
    (fun d => { d with state := x, leg := true, packetSlot := true, toDeliver := 30, delivered := 8, records := [⟨3, 0x8000, 8, 77⟩] })
    (updSlots (.completion .l1) (fun a => { a with reserved := 1 }) s)

/-- Records posted to L1's fill ring. -/
def filled (k : BitVec 16) (s : State) : State := updRing (.fill .l1) (fun g => { g with producer := k }) s

/-- Records posted to L1's send ring. -/
def posted (k : BitVec 16) (s : State) : State := updRing (.send .l1) (fun g => { g with producer := k }) s

/-- L1's completion ring full. -/
def crowded (s : State) : State := updRing (.completion .l1) (fun g => { g with producer := 8 }) s

/-- L1's head engine with its timer at its end. -/
def timedOut (s : State) : State := updHead .l1 (fun h => { h with timer := some 0, limit := 3 }) s

/-- A command in EXECUTE, with its notice slot. -/
def commanded (bytes : List Byte) (s : State) : State :=
  updSlots .notice (fun a => { a with reserved := 1 })
    (updCommand (fun _ => ⟨.execute, true, some ⟨3, recordOf bytes⟩, .none⟩) s)

/-- A chain of two records, of 5 bytes, that asks for ABANDON. -/
def chain : Chain := ⟨[⟨4, 0x100, 3, true, false, 1⟩, ⟨5, 0x200, 2, false, true, 9⟩], .valid⟩

/-- L1's outbound engine with its packet in transmission. -/
def sending (t : Transmission) (g : Staging) (s : State) : State :=
  updOutbound .l1 (fun o => { o with transmission := t, staging := g, bytesSent := 2 })
    (updSlots (.completion .l1) (fun a => { a with reserved := 1 }) s)

/-- A fill or send record: an address, the word at byte 8, and a cookie. -/
def record (address word cookie : Nat) : Record := BitVec.ofNat 256 (address + word * 2 ^ 64 + cookie * 2 ^ 96)

/-- An anchor record: every ring of 8 entries at a base, a progress address, and a format. -/
def anchor (base progress format : Nat) : AnchorRecord :=
  BitVec.ofNat 2048 (((List.range 14).map (fun k => (base + (3 <<< 64) + (k <<< 72)) <<< (128 * k))).sum
    + (progress <<< (8 * 0xE0)) + (format <<< (8 * 0xE8)))

/-- L1 with a packet OPEN behind a head that is delivered. -/
def openBehind : State := intaking .filling (indexed [delivering, arriving] up)

/-- L1 with a host chain in transmission. -/
def chainSent : State := sending (.host chain) ⟨[], [], []⟩ up

/-- L1 with the head of its own store in transmission, its delivery running beside. -/
def forwardBeside : State :=
  sending (.forward .l1 5 false) ⟨[], [], []⟩ (indexed [{ delivering with disposition := some ⟨.copy, .l1, false⟩, forward := .active }] up)

/-- L1 with the head of its own store in transmission, and no delivery leg. -/
def forwardAlone : State :=
  sending (.forward .l1 5 false) ⟨[], [], []⟩
    (indexed [{ forwarding with disposition := some ⟨.forward, .l1, false⟩, forward := .active }, arriving] up)

/-- L1's head engine held, with the expired mark set and a flush of 3 packets waiting for its head. -/
def pressed (s : State) : State :=
  updCommand (fun c => { c with wait := .flush .l1 })
    (commanded [4, 1] (updHead .l1 (fun h => { h with hold := true, expired := true, flush := some 3 }) s))

/-- L1's table discards tag 3. -/
def discarding (s : State) : State :=
  updHead .l1 (fun h => { h with table := h.table.setIfInBounds 3 ⟨.discard, .l0, false⟩ }) s

/-- Behind a head: a packet that is discarded and one that is decided next. -/
def behind : List IndexEntry := [packet 6 4 (some 3), packet 7 2 (some 9)]

/-- The entry that is left at the front is known. -/
theorem quietNext_of_front {i : LineId} {rest : List IndexEntry} {s : State} {y : IndexEntry}
    (front : (rest.dropWhile (discardedNext (s.head i))).head? = some y) (undecided : y.disposition = none)
    (hold : (s.head i).hold = true) : quietNext i rest s := by
  intro x hx _
  rw [front] at hx
  cases hx
  exact ⟨undecided, hold⟩

/-- An OPEN entry next to the head. -/
theorem quietNext_arriving {i : LineId} {s : State} : quietNext i [arriving] s := by
  intro x hx complete
  have open_ : discardedNext (s.head i) arriving = false := rfl
  simp only [List.dropWhile, open_, List.head?_cons, Option.some.injEq] at hx
  subst hx
  exact absurd complete (by decide)

/-- A head that has nothing left to do, seen at the front of its index. -/
theorem headSettled_of_front {n : LineId} {s : State}
    (h : ∀ e ∈ (s.store n).index.head?, e.state = .complete →
      e.disposition ≠ none ∧ (e.delivery = .pending ∨ e.delivery = .active ∨ e.forward = .pending ∨ e.forward = .active)
        ∧ (e.delivery = .pending → (s.head n).hold = false → (s.delivery n).state ≠ .idle)) : headSettled n s :=
  fun e he => h e he

/-- A settled head, with no OPEN packet or with one behind it. -/
theorem headAtRest_of_front {n : LineId} {s : State}
    (h : ∀ e ∈ (s.store n).index.head?, e.state = .complete →
      e.disposition ≠ none ∧ (e.delivery = .pending ∨ e.delivery = .active ∨ e.forward = .pending ∨ e.forward = .active)
        ∧ (e.delivery = .pending → (s.head n).hold = false → (s.delivery n).state ≠ .idle))
    (behind : (s.store n).intake = .filling → 2 ≤ (s.store n).index.length) : headAtRest n s :=
  ⟨headSettled_of_front h, behind⟩

/-- The next state of a command. -/
def after (c : Instr) (s : State) : State :=
  match exec c s with
  | .next t => t
  | .fault _ => s
  | .refused _ => s

/-! ## Characters (10.7 gives the words) -/

theorem test_null : symbolCharacter .null = 0b0000011111#10 ∧ decodeCharacter 0b0000011111#10 = .symbol .null := by decide
theorem test_ready : symbolCharacter .ready = 0b0010110101#10 ∧ decodeCharacter 0b0010110101#10 = .symbol .ready := by decide
theorem test_grant_2 : symbolCharacter (.grant 2) = 0b0100000011#10 ∧ decodeCharacter 0b0100000011#10 = .symbol (.grant 2) := by
  decide
theorem test_data_zero : dataCharacter 0 = 0b1000000000#10 ∧ decodeCharacter 0b1000000000#10 = .data 0 := by decide
theorem test_even_parity_fails : decodeCharacter 0#10 = .failure ∧ decodeCharacter 0b1000011111#10 = .failure := by decide
theorem test_code_that_is_no_symbol_fails : decodeCharacter 0b1000000001#10 = .failure ∧ decodeCharacter 1#10 = .failure := by decide

/-! ## Ill-formed commands, one for each check -/

theorem test_enable_ill_formed : wellFormed (.enable 0) = false ∧ wellFormed (.enable 3) = false := by decide
theorem test_reset_ill_formed : wellFormed (.reset 1) = false := by decide
theorem test_anchorWrite_ill_formed : wellFormed (.anchorWrite .low 0 5) = false := by decide
theorem test_registerWrite_ill_formed :
    wellFormed (.registerWrite .control 15 1) = false ∧ wellFormed (.registerWrite .post 15 0) = false
      ∧ wellFormed (.registerWrite .anchorHigh 1 0) = false := by decide
theorem test_postHostRing_ill_formed : wellFormed (.postHostRing 0x00010000) = false := by decide
theorem test_postPartRing_ill_formed :
    wellFormed (.postPartRing 0x00020000) = false ∧ wellFormed (.postPartRing 0x00110000) = false := by decide
theorem test_postArm_ill_formed :
    wellFormed (.postArm 0x00010000) = false ∧ wellFormed (.postArm 0x00120000) = false := by decide
theorem test_characterAlign_ill_formed : wellFormed (.characterAlign .l0 (symbolCharacter .null)) = false := by decide
set_option maxRecDepth 4000 in
theorem test_hostDataReadDone_ill_formed :
    wellFormed (.hostDataReadDone .l0 0 (some [])) = false
      ∧ wellFormed (.hostDataReadDone .l0 0 (some (List.replicate 513 0))) = false := by decide

/-! ## Registers, rings and commands -/

theorem test_ident : readRegister State.reset .ident = 0x04400103 := by decide
/-- 10.2: FAULTED by ANCHOR_INVALID with detail ANCHOR_ADDRESS. -/
theorem test_status : statusWord ⟨.faulted, 1, .anchorInvalid, 1, 0⟩ = 0x0000010B := by decide
/-- The table of R154: a read of IDENT, one that leaves the window, and a write across both halves of the anchor address. -/
theorem test_window :
    windowRegisters.map windowOffset = [0, 4, 8, 12, 16, 20] ∧ readWindow State.reset 0 4 = some [0x03, 0x01, 0x40, 0x04]
      ∧ readWindow State.reset 0x16 4 = none
      ∧ windowWrite 0x0F [0x11, 0x22] = [.anchorWrite .low 8 0x11000000, .anchorWrite .high 1 0x22] := by decide
theorem test_enable : (after (.enable 1) State.reset).part.state = .loading
    ∧ (after (.enable 1) State.reset).bus = [.read 0 256] := by decide
theorem test_reset : (after (.reset 3) up).part.state = .halted ∧ (after (.reset 3) up).port .l1 = LinePort.reset := by decide
theorem test_powerOn : (after .powerOn (after (.ddrWordCorrupted 5) up)).ddr.bad 40 = false := by decide
theorem test_anchorWrite :
    (after (.anchorWrite .high 6 0x11223344) State.reset).part.anchor = 0x0022330000000000 := by decide
theorem test_registerWrite : (after (.registerWrite .post 3 0x00000001) up).rings = rings := by decide
theorem test_postHostRing : (after (.postHostRing 0x00020003) running).ring (.send .l0) = { ringAt 2 with producer := 3 } := by decide
/-- 8.6, step 6 of the worked example: a POST to ring 10 past its producer is held as POST_REJECTED when the ring is full. -/
theorem test_postPartRing :
    (after (.postPartRing 0x000A0001) (updRing .notice (fun g => { g with producer := 208, consumer := 200 }) running)).held
      = [⟨.postRejected 10 .pastProducer 1 false 0 0, 0⟩] := by decide
/-- 8.6, step 8: index 203 with the arm request leaves 5 entries, so the vector is sent at once. -/
theorem test_postArm :
    (after (.postArm 0x001100CB) (updRing .notice (fun g => { g with producer := 208, consumer := 200 }) running)).bus
      = [.interrupt 1] := by decide
theorem test_anchorReadDone :
    (after (.anchorReadDone (some (anchor 0x40 0x80 1))) (after (.enable 1) State.reset)).ring (.send .l1)
      = ⟨0x40, 8, 3, 0, 0⟩ := by decide +kernel
theorem test_anchorReadDone_bad_ring :
    (after (.anchorReadDone (some (anchor 0x41 0x80 1))) (after (.enable 1) State.reset)).part.detail = 0x40 := by decide +kernel
/-- 8.6, step 8: three held notices are written at 208, 209 and 210. -/
theorem test_pendingNoticeWrite :
    (after .pendingNoticeWrite
      { updRing .notice (fun g => { g with producer := 208, consumer := 203 }) running with
        held := [⟨.linkState .l2 .listen .none, 5⟩, ⟨.forwardCut .l0 .l2 310 none 0, 0⟩,
          ⟨.postRejected 10 .pastProducer 1 false 0 0, 0⟩] }).ring .notice
      = { ringAt 1 with producer := 211, consumer := 203 } := by decide
theorem test_slotGranted :
    (after (.slotGranted (.completion .l1))
      (updSlots (.completion .l1) (fun a => { a with waiting := [.delivery, .outbound] })
        (delivery .spareWait (indexed [delivering] up)))).slot (.completion .l1) = ⟨2, false, [.outbound]⟩ := by decide
theorem test_commandReadDone_unknown_opcode :
    (after (.commandReadDone (some (recordOf [0x7F, 2])))
      (updCommand (fun c => { c with state := .fetch, slot := true }) running)).bus[1]?
      = some (.entry 0x2000 (recordOf [0x10, 0, 0, 1, 0, 0, 0x7F])) := by decide
theorem test_linkConfigure :
    (after .linkConfigure (commanded
      ([1, 1, 0, 0, 0, 0, 2, 0, 0, 0, 1, 0, 16, 0, 5, 0, 100, 0, 1, 1, 1, 1, 1]) running)).store .l1
      = { Store.reset with base := 131072, size := 65536, maxLength := 16, policy := .dropNew } := by decide
theorem test_linkStart : ((after .linkStart (commanded [2, 1] (lineIn .off))).port .l1).state = .listen := by decide
theorem test_linkStop : (after .linkStop (commanded [3, 1] up)).credit .l1 = ⟨0, 0, none⟩ := by decide
theorem test_linkFlush :
    ((after .linkFlush (commanded [4, 1] (indexed [delivering, packet 6 4 none, arriving] up))).store .l1).index
      = [delivering, { arriving with offset := 130 }] := by decide
theorem test_linkHold :
    ((after .linkHold (commanded [5, 1, 0, 0, 1] (timedOut (indexed [delivering] up)))).head .l1).timer = none := by decide
theorem test_sendCancel :
    (after .sendCancel (commanded [6, 1] (updSlots (.completion .l1) (fun a => { a with reserved := 1 })
      (updOutbound .l1 (fun o => { o with fetch := .holding, held := some chain }) (lineIn .off))))).bus[2]?
      = some (.entry 0x2000 (recordOf [0x10, 1, 0, 0, 3, 0, 6, 0, 1, 0, 0, 0, 2])) := by decide
theorem test_tableWrite :
    tableEntry ((after .tableWrite (commanded [7, 1, 0, 0, 3, 0, 1, 0, 0xFE] running)).head .l1) 3 = ⟨.copy, .l3, true⟩ := by decide +kernel
theorem test_tableRead :
    (after .tableRead (commanded [8, 1, 0, 0, 254, 0, 3] running)).bus[0]?
      = some (.entry 0x2000 (recordOf [0x10, 1, 0, 0, 3, 0, 8])) := by decide
theorem test_timeSet :
    (after .timeSet (commanded [9, 7, 0, 0, 7, 1, 100, 0, 1] running)).time
      = ⟨7, 0, .internal, 100, some 100000, true, 0⟩ := by decide
theorem test_queryLink :
    (after .queryLink (commanded [10, 1, 0, 0, 0, 1] up)).bus[0]?
      = some (.entry 0x2000 (recordOf [0x10, 1, 0, 0, 3, 0, 10, 0, 3, 1, 0, 0, 16, 0, 16, 0])) := by decide

/-! ## Lines, stores and time -/

theorem test_characterAlign :
    ((after (.characterAlign .l1 (symbolCharacter .hello)) (lineIn .listen)).port .l1).handshake = some 2000 := by decide
theorem test_rxConnectChar :
    ((after (.rxConnectChar .l1 (symbolCharacter (.grant 2))) (lineIn .connect)).credit .l1).allowance = 32 := by decide
/-- 3.9, step 4: the seventh byte of P2 wraps from offset 65535 to 0. -/
theorem test_rxRunChar_wraps :
    let s := updStore .l1 (fun st => { st with writeOffset := 65535 }) (intaking .filling (indexed [arriving] up))
    ((after (.rxRunChar .l1 (dataCharacter 7)) s).store .l1).writeOffset = 0
      ∧ cellRead (after (.rxRunChar .l1 (dataCharacter 7)) s).ddr.cells (131072 + 65535) = 7 := by decide
/-- 2.6, step 1: with 200 free bytes GRANT(8) sent leaves a room of 72, and the offer GRANT(4). -/
theorem test_characterBoundary_grant :
    (after (.characterBoundary .l1) (updCredit .l1 (fun _ => ⟨0, 0, some 8⟩)
      (updStore .l1 (fun st => { st with occupied := 65336 }) up))).credit .l1 = ⟨128, 0, some 4⟩ := by decide
/-- R13, R88, R152: an expiry taken while its timer has not run out does not happen. -/
theorem test_expiry_of_a_restarted_timer :
    ((after (.headTimerExpiry .l1) (updHead .l1 (fun h => { h with timer := some 3 }) (indexed [forwarding] up))).store .l1).index
        = [forwarding]
      ∧ (after .periodTimerExpiry { running with time := ⟨255, 9, .internal, 5, some 4, false, 2⟩ }).time.epoch = 255 := by decide
theorem test_handshakeTimeout :
    ((after (.handshakeTimeout .l1) (lineIn .connect)).port .l1).lastCause = .handshakeTimeout := by decide
theorem test_silence : ((after (.silence .l1) up).port .l1).quiet = some 100 := by decide
theorem test_quietTimerExpiry : ((after (.quietTimerExpiry .l1) (lineIn .recover)).port .l1).state = .off := by decide
/-- 7.6 and 7.2: the epoch goes from 255 to 0. -/
theorem test_periodTimerExpiry :
    (after .periodTimerExpiry { running with time := ⟨255, 9, .internal, 5, some 0, false, 2⟩ }).time
      = ⟨0, 0, .internal, 5, some 5000, false, 2⟩ := by decide
theorem test_fineCounterTick : (after .fineCounterTick { running with time := ⟨1, 16777215, .none, 5, none, false, 2⟩ }).time.fine
    = 16777215 := by decide
theorem test_ddrWordCorrupted : (after (.ddrWordCorrupted 5) running).ddr.bad 47 = true
    ∧ (after (.ddrWordCorrupted 5) running).ddr.bad 48 = false := by decide

/-! ## Engines -/

theorem test_headTimerExpiry : ((after (.headTimerExpiry .l1) (timedOut (indexed [forwarding] up))).head .l1).expiredCount = 1 := by
  decide
theorem test_deliveryRecordResume :
    ((after (.deliveryRecordResume .l1) (filled 1 (delivery .recordWait (indexed [delivering] up)))).delivery .l1).state
      = .fetch := by decide
/-- 5.9, step 6: a size of 100 is not a multiple of 8. -/
theorem test_fillRecordReadDone :
    (after (.fillRecordReadDone .l1 (some (record 0x8000 100 66)))
      (filled 1 (delivery .fetch (indexed [delivering] up)))).bus[1]?
      = some (.entry 0xC000 (recordOf [2, 1, 0, 1, 0, 0, 5, 0, 100, 0, 0, 0, 66, 0, 0, 0, 0, 0x80])) := by decide
theorem test_deliveryBufferDone :
    (after (.deliveryBufferDone .l1)
      (updDelivery .l1 (fun d => { d with current := some ⟨⟨3, 0x8000, 64, 77⟩, 0⟩ })
        (delivery .write (indexed [delivering] up)))).bus.length = 3 := by decide
theorem test_sendRecordReadDone :
    ((after (.sendRecordReadDone .l1 (some (record 0x100 3 5)))
      (posted 1 (updOutbound .l1 (fun o => { o with fetch := .fetch }) (lineIn .off)))).outbound .l1).held
      = some ⟨[⟨0, 0x100, 3, false, false, 5⟩], .valid⟩ := by decide
theorem test_hostDataReadDone :
    ((after (.hostDataReadDone .l1 1 (some [8, 9]))
      (sending (.host chain) ⟨[1], [⟨0x100, 3, none⟩, ⟨0x200, 2, none⟩], []⟩ up)).outbound .l1).staging.bytes = [1] := by decide
theorem test_forwardDataReadDone :
    ((after (.forwardDataReadDone .l1)
      (updDdr (fun d => d.write (131072 + 101) 7)
        (sending (.forward .l1 5 false) ⟨[], [⟨100, 3, none⟩], []⟩ (indexed [forwarding] up)))).outbound .l1).staging.bytes
      = [0, 7, 0] := by decide

/-! ## Witnesses: for each statement with hypotheses, states and operands that meet those of each of its clauses -/

theorem witness_StepCarriesOutTheFront :
    ({ State.reset with pending := [.powerOn] } : State).pending = [.powerOn] ∧ State.reset.pending = [] := by decide

theorem witness_ControlWritesAreTakenAsR157Says :
    (controlReset 3 = true ∧ controlReset 1 = false ∧ controlEnable 1 = true ∧ controlReset 0 = false ∧ controlEnable 0 = false
      ∧ State.reset.part.state = .halted ∧ running.part.state ≠ .halted)
      ∧ exec (.enable 1) State.reset = .next (after (.enable 1) State.reset)
      ∧ exec (.reset 2) (after (.enable 1) State.reset) = .next (after (.reset 2) (after (.enable 1) State.reset))
      ∧ exec (.reset 2) running = .next (after (.reset 2) running)
      ∧ exec (.enable 1) (after (.reset 2) running) = .next (after (.enable 1) (after (.reset 2) running)) :=
  ⟨by decide, rfl, rfl, rfl, rfl⟩

theorem witness_EnableReadsTheAnchorOrFaults :
    State.reset.part.state = .halted ∧ State.reset.part.anchor.toNat % 256 = 0
      ∧ (after (.anchorWrite .low 1 0x01) State.reset).part.state = .halted
      ∧ (after (.anchorWrite .low 1 0x01) State.reset).part.anchor.toNat % 256 ≠ 0 := by decide

theorem witness_PartResetRestoresEveryBlock :
    (∃ w, Instr.reset 2 = .reset w ∧ controlReset w = true) ∧ Instr.powerOn = .powerOn ∧ up.credit .l1 ≠ ⟨0, 0, none⟩ :=
  ⟨⟨2, rfl, by decide⟩, rfl, by decide⟩

/-- An access within one register, its last byte, one across two, and one beyond the window. -/
theorem witness_TheWindowReadsAndWritesAsR154Says :
    State.reset.part.state = .halted ∧ running.part.state ≠ .halted ∧ wellFormed (.registerWrite .ident 15 7) = true
      ∧ wellFormed (.registerWrite .control 7 1) = true ∧ wellFormed (.registerWrite .control 15 0) = true
      ∧ wellFormed (.registerWrite .post 1 1) = true ∧ (15 : BitVec 4) ≠ 0
      ∧ windowOffset .status + 3 + 5 ≤ 24 ∧ 24 < windowOffset .post + 3 + 2 ∧ 3 + ([7] : List Byte).length ≤ 4
      ∧ ([7] : List Byte) ≠ [] := by decide

/-- At the boundary: a ring posted full, and one posted no further. Then a reader of each kind, free and busy. -/
theorem witness_PostToAHostRingSetsItsProducer :
    let o := lineIn .off
    running.part.state = .running ∧ postRing 0x00020008 = some (.send .l0) ∧ partRingOf (.send .l0) = none
      ∧ (postIndex 0x00020008 - (running.ring (.send .l0)).consumer).toNat ≤ (running.ring (.send .l0)).size
      ∧ (running.ring (.send .l0)).count ≤ (postIndex 0x00020008 - (running.ring (.send .l0)).consumer).toNat
      ∧ (running.ring (.send .l0)).count ≤ (postIndex 0x00020000 - (running.ring (.send .l0)).consumer).toNat
      ∧ (running.port .l0).configured = false
      ∧ postRing 0x00000001 = some .command ∧ partRingOf .command = none
      ∧ (postIndex 0x00000001 - (running.ring .command).consumer).toNat ≤ (running.ring .command).size
      ∧ (running.ring .command).count ≤ (postIndex 0x00000001 - (running.ring .command).consumer).toNat
      ∧ running.command.state = .idle ∧ postIndex 0x00000001 ≠ (running.ring .command).consumer ∧ running.held = []
      ∧ 1 ≤ freeSlots .notice running
      ∧ (setHeld [⟨.linkState .l2 .listen .none, 5⟩] running).held ≠ []
      ∧ (commanded [2, 1] running).command.state ≠ .idle
      ∧ postRing 0x00030001 = some (.send .l1) ∧ (o.outbound .l1).fetch = .waitRecord ∧ (o.outbound .l1).held = none
      ∧ (o.outbound .l1).cancel = none ∧ (o.port .l1).configured = true
      ∧ postIndex 0x00030001 ≠ (o.ring (.send .l1)).consumer
      ∧ postRing 0x00070001 = some (.fill .l1) ∧ partRingOf (.fill .l1) = none := by decide

theorem witness_RejectedPostsPostOnlyTheirNotice :
    State.reset.part.state ≠ .running ∧ running.part.state = .running ∧ postRing 0x00020009 = some (.send .l0)
      ∧ partRingOf (.send .l0) = none
      ∧ ¬ ((postIndex 0x00020009 - (running.ring (.send .l0)).consumer).toNat ≤ (running.ring (.send .l0)).size
          ∧ (running.ring (.send .l0)).count ≤ (postIndex 0x00020009 - (running.ring (.send .l0)).consumer).toNat)
      ∧ postRing 0x00010001 = some .notice ∧ partRingOf .notice = some .notice
      ∧ (running.ring .notice).count < (postIndex 0x00010001 - (running.ring .notice).consumer).toNat
      ∧ 14 ≤ (postRingField 0x000E0000).toNat := by decide

/-- An index that takes every entry, and one that leaves one. -/
theorem witness_PostToAPartRingSetsItsConsumer :
    (crowded running).part.state = .running ∧ postRing 0x000B0008 = some (partRingId (.completion .l1))
      ∧ postRing 0x000B0007 = some (partRingId (.completion .l1)) ∧ postArmRequest 0x000B0008 = false
      ∧ (postIndex 0x000B0008 - ((crowded running).ring (partRingId (.completion .l1))).consumer).toNat
        ≤ ((crowded running).ring (partRingId (.completion .l1))).count
      ∧ (postIndex 0x000B0007 - ((crowded running).ring (partRingId (.completion .l1))).consumer).toNat
        ≤ ((crowded running).ring (partRingId (.completion .l1))).count
      ∧ partRingLaw ((crowded running).ring (partRingId (.completion .l1))) ((crowded running).slot (.completion .l1)) := by
  unfold partRingLaw
  decide

/-- A good anchor record, and one that fails each check: the format, ring 0 (by its base) and the progress address. -/
theorem witness_TheAnchorRecordDecidesRunningOrFaulted :
    (after (.enable 1) State.reset).part.state = .loading
      ∧ anchorFormat (anchor 0x40 0x80 1) = 1 ∧ (∀ r ∈ allRings, anchorRingGood (anchor 0x40 0x80 1) r = true)
      ∧ (anchorProgress (anchor 0x40 0x80 1)).toNat % 64 = 0
      ∧ anchorFormat (anchor 0x40 0x80 2) ≠ 1
      ∧ anchorRingGood (anchor 0x41 0x80 1) .command = false
      ∧ (anchorProgress (anchor 0x40 0x81 1)).toNat % 64 ≠ 0 := by decide +kernel

theorem witness_FailedReadsEnterFaultedInSilence :
    (after (.enable 1) State.reset).part.state = .loading ∧ running.part.state = .running
      ∧ (updCommand (fun c => { c with state := .fetch }) running).command.state = .fetch
      ∧ ((updOutbound .l1 (fun o => { o with fetch := .fetch }) chainSent).outbound .l1).fetch = .fetch
      ∧ ((delivery .fetch openBehind).delivery .l1).state = .fetch ∧ (openBehind.port .l1).state = .run
      ∧ (openBehind.store .l1).intake = .filling ∧ (openBehind.store .l1).index = [delivering] ++ [arriving]
      ∧ (running.port .l1).state ≠ .run ∧ (up.outbound .l1).transmission = .none
      ∧ (chainSent.port .l1).state = .run ∧ (chainSent.outbound .l1).transmission ≠ .none
      ∧ (forwardBeside.outbound .l1).transmission = .forward .l1 5 false ∧ headEntry .l1 forwardBeside ≠ none := by decide

/-- L1's delivery engine and its outbound engine each wait for a slot. -/
theorem witness_GrantedRequestsGoOn :
    let offered : IndexEntry := { delivering with delivery := .pending }
    let w := updSlots (.completion .l1) (fun a => { a with waiting := [.delivery] })
      (updDelivery .l1 (fun d => { d with state := .slotWait, leg := true }) (indexed [offered] up))
    let s := updSlots (.completion .l1) (fun a => { a with waiting := [.delivery] })
      (delivery .spareWait (indexed [delivering] up))
    let o := updSlots (.completion .l1) (fun a => { a with waiting := [.outbound] })
      (updOutbound .l1 (fun o => { o with fetch := .slotWait, waiting := some chain }) (lineIn .off))
    w.part.state = .running ∧ (w.slot (.completion .l1)).waiting = [.delivery] ∧ 1 ≤ freeSlots (.completion .l1) w
      ∧ (w.delivery .l1).state = .slotWait ∧ (w.store .l1).index = [offered] ∧ offered.state = .complete
      ∧ offered.disposition = some ⟨.deliver, .l0, false⟩ ∧ 1 ≤ leftBytes offered ⟨.deliver, .l0, false⟩
      ∧ (w.ring (.fill .l1)).count = 0 ∧ (w.head .l1).expired = false
      ∧ s.part.state = .running ∧ (s.slot (.completion .l1)).waiting = [.delivery] ∧ 1 ≤ freeSlots (.completion .l1) s
      ∧ (s.delivery .l1).state = .spareWait ∧ headEntry .l1 s = some delivering ∧ delivering.disposition ≠ none
      ∧ delivering.delivery = .active
      ∧ (o.slot (.completion .l1)).waiting = [.outbound] ∧ 1 ≤ freeSlots (.completion .l1) o
      ∧ (o.outbound .l1).waiting = some chain ∧ chain.verdict = .valid ∧ (o.outbound .l1).cancel = none
      ∧ ((updPort .l1 (fun p => { p with state := .run }) o).outbound .l1).waiting = some chain
      ∧ (updCommand (fun c => { c with state := .slotWait }) running).command.state = .slotWait
      ∧ running.held = [] ∧ 1 ≤ freeSlots .notice running := by decide

theorem witness_HeldNoticesAreWrittenInOrder :
    let s := setHeld [⟨.linkState .l2 .listen .none, 5⟩] running
    s.part.state = .running ∧ (s.ring .notice).count + (s.slot .notice).reserved ≤ (s.ring .notice).size
      ∧ (s.ring .notice).size ≤ 4096 := by decide

theorem witness_EntriesAreWrittenInTheOrderOfR172 :
    running.held = [] ∧ 1 ≤ freeSlots .notice running
      ∧ freeSlots .notice (updRing .notice (fun g => { g with producer := 8 }) running) = 0
      ∧ heldInOrder [⟨.linkState .l2 .listen .none, 5⟩, ⟨.linkState .l3 .listen .none, 255⟩]
      ∧ noticeKey (.linkState .l3 .run .none) = noticeKey (.linkState .l3 .listen .none) := by
  unfold heldInOrder
  decide

theorem witness_EntriesAreLaidOutAs106Says :
    (List.replicate 32 (1 : Byte)).length ≤ 32 ∧ (⟨1, 0, 0x07, .ok, List.replicate 24 1⟩ : CommandDone).result.length ≤ 24 := by
  decide

theorem witness_CommandReadsTakeTheCommand :
    let s := updCommand (fun c => { c with state := .fetch, slot := true }) running
    s.part.state = .running ∧ s.command.state = .fetch ∧ checkCommand (recordOf [3, 1]) s = none
      ∧ checkCommand (recordOf [2, 1]) s = some ⟨.notConfigured, []⟩
      ∧ (Instr.linkStart, CommandKind.linkStart) ∈ [(Instr.linkStart, CommandKind.linkStart)]
      ∧ currentOf .linkStart (commanded [2, 1] running) = some (recordOf [2, 1])
      ∧ checkCommand (recordOf [2, 1]) (commanded [2, 1] running) = some ⟨.notConfigured, []⟩ := by decide

/-- One entry for each clause, and a maximum length of 16 at its bound. -/
theorem witness_ChecksAreMadeInOrder :
    commandKind (recordByte (recordOf [0x0B]) 0) = none
      ∧ commandKind (recordByte (recordOf [1, 4]) 0) = some .linkConfigure ∧ 3 < (recordByte (recordOf [1, 4]) 1).toNat
      ∧ recordByte (recordOf [1, 3]) 0 = 0x01 ∧ (recordByte (recordOf [1, 3]) 1).toNat = lineNumber .l3
      ∧ checkCommand (recordOf ([1, 1, 0, 0, 0, 0, 2, 0, 0, 0, 1, 0, 16, 0, 5, 0, 100, 0])) running = none
      ∧ checkCommand (recordOf ([1, 1, 0, 0, 0, 0, 2, 0, 0, 0, 1, 0, 15, 0, 5, 0, 100, 0])) running = some ⟨.badField, []⟩
      ∧ recordByte (recordOf [2, 3]) 0 = 0x02 ∧ recordByte (recordOf [4]) 0 = 0x04 ∧ recordByte (recordOf [5]) 0 = 0x05
      ∧ recordByte (recordOf [6]) 0 = 0x06 ∧ recordByte (recordOf [8]) 0 = 0x08 ∧ recordByte (recordOf [9]) 0 = 0x09
      ∧ recordByte (recordOf [10]) 0 = 0x0A := by decide

/-- The last base that overlaps L1's region from below, and the first beyond it. -/
theorem witness_ChecksAreMadeInOrder_overlap :
    (0 : Nat) < 65536 ∧ (∀ m ∈ allLines, ((lineIn .off).port m).configured = true → 0 < ((lineIn .off).store m).size)
      ∧ overlappingLine 196607 65536 .l0 (lineIn .off) = some .l1 ∧ overlappingLine 196608 65536 .l0 (lineIn .off) = none := by decide

theorem witness_EndedCommandsAreReported :
    (commanded [2, 1] running).command.current = some ⟨3, recordOf [2, 1]⟩ ∧ 1 ≤ ((commanded [2, 1] running).slot .notice).reserved
      ∧ ([] : List Byte).length ≤ 24 ∧ ((commanded [2, 1] running).ring .command).count = 0
      ∧ 1 ≤ ((updRing .command (fun g => { g with producer := 1 }) (commanded [2, 1] running)).ring .command).count := by decide

theorem witness_LinkConfigureRecordsItsSettings :
    executing .linkConfigure .l1 (recordOf ([1, 1, 0, 0, 0, 0, 2, 0, 0, 0, 1, 0, 16, 0, 5, 0, 100, 0, 1, 1, 1, 1, 1])) 3
        (commanded ([1, 1, 0, 0, 0, 0, 2, 0, 0, 0, 1, 0, 16, 0, 5, 0, 100, 0, 1, 1, 1, 1, 1]) running)
      ∧ (running.outbound .l1).fetch = .waitRecord ∧ (running.outbound .l1).held = none
      ∧ 1 ≤ ((posted 1 running).ring (.send .l1)).count := by
  unfold executing
  decide

/-- LINK_STOP from each kind of state, and from RUN in each case of the loss of RUN. -/
theorem witness_LinkStartAndStopMoveTheLine :
    (executing .linkStart .l1 (recordOf [2, 1]) 3 (commanded [2, 1] (lineIn .off))
      ∧ executing .linkStop .l1 (recordOf [3, 1]) 3 (commanded [3, 1] (lineIn .off)) ∧ ((lineIn .off).port .l1).state = .off
      ∧ executing .linkStop .l1 (recordOf [3, 1]) 3 (commanded [3, 1] (lineIn .recover))
      ∧ executing .linkStop .l1 (recordOf [3, 1]) 3 (commanded [3, 1] up) ∧ (up.port .l1).state = .run
      ∧ (up.outbound .l1).transmission = .none)
      ∧ headAtRest .l1 (commanded [3, 1] up) := by
  refine ⟨?_, headAtRest_of_front (by decide) (by decide)⟩
  unfold executing
  decide

theorem witness_LinkStartAndStopMoveTheLine_lostRun :
    executing .linkStop .l1 (recordOf [3, 1]) 3 (commanded [3, 1] openBehind)
      ∧ executing .linkStop .l1 (recordOf [3, 1]) 3 (commanded [3, 1] chainSent)
      ∧ executing .linkStop .l1 (recordOf [3, 1]) 3 (commanded [3, 1] forwardBeside)
      ∧ executing .linkStop .l1 (recordOf [3, 1]) 3 (commanded [3, 1] forwardAlone) := by
  unfold executing
  decide

/-- An empty index, and a head that is delivered, with and without an OPEN packet behind. -/
theorem witness_LinkFlushReleasesAndCounts :
    let a := commanded [4, 1] (indexed [delivering, packet 6 4 none] up)
    let m := commanded [4, 1] (indexed [delivering, packet 6 4 none, arriving] up)
    executing .linkFlush .l1 (recordOf [4, 1]) 3 (commanded [4, 1] up) ∧ (up.store .l1).index = []
      ∧ executing .linkFlush .l1 (recordOf [4, 1]) 3 a ∧ (a.store .l1).index = [delivering, packet 6 4 none]
      ∧ (∀ x ∈ [packet 6 4 none], x.state = .complete) ∧ delivering.state = .complete ∧ delivering.disposition ≠ none
      ∧ delivering.delivery = .active ∧ delivering.forward ≠ .pending ∧ (a.head .l1).flush = none
      ∧ (a.delivery .l1).state ≠ .slotWait
      ∧ executing .linkFlush .l1 (recordOf [4, 1]) 3 m
      ∧ (m.store .l1).index = delivering :: ([packet 6 4 none] ++ [arriving]) ∧ arriving.state = .arriving
      ∧ (m.head .l1).flush = none ∧ (m.delivery .l1).state ≠ .slotWait ∧ m.ddr.wf = true
      ∧ arriving.stored ≤ (m.store .l1).size ∧ (m.store .l1).base + (m.store .l1).size ≤ 1073741824 := by
  unfold executing
  decide

/-- An OPEN head, a head not decided, and one that waits to be forwarded. -/
theorem witness_LinkFlushReleasesAndCounts_heads :
    let o := commanded [4, 1] (indexed [arriving] up)
    let u := commanded [4, 1] (indexed [packet 5 30 none, packet 6 4 none] up)
    let p := commanded [4, 1] (indexed [forwarding] up)
    executing .linkFlush .l1 (recordOf [4, 1]) 3 o ∧ (o.store .l1).index = [arriving]
      ∧ executing .linkFlush .l1 (recordOf [4, 1]) 3 u ∧ (u.store .l1).index = [packet 5 30 none, packet 6 4 none]
      ∧ (packet 5 30 none).disposition = none ∧ (packet 5 30 none).delivery = .absent ∧ (packet 5 30 none).forward = .absent
      ∧ (u.head .l1).expired = false
      ∧ executing .linkFlush .l1 (recordOf [4, 1]) 3 p ∧ (p.store .l1).index = [forwarding] ∧ forwarding.disposition ≠ none
      ∧ forwarding.delivery = .absent ∧ forwarding.forward = .pending ∧ (p.head .l1).expired = false := by
  unfold executing
  decide

/-- Hold goes on beside a delivery that runs and one that waits for its slot, and off with no head, with an OPEN one, and with one that
is delivered while its forward, if any, waits at its arbiter. -/
theorem witness_LinkHoldSetsOrClearsHold :
    let on (s : State) := commanded [5, 1, 0, 0, 0] (updHead .l1 (fun h => { h with hold := true }) s)
    let s := indexed [delivering] up
    let copied : IndexEntry := { delivering with disposition := some ⟨.copy, .l2, false⟩, forward := .pending }
    executing .linkHold .l1 (recordOf [5, 1, 0, 0, 0]) 3 (commanded [5, 1, 0, 0, 0] s) ∧ (s.head .l1).hold = false
      ∧ executing .linkHold .l1 (recordOf [5, 1, 0, 0, 1]) 3 (commanded [5, 1, 0, 0, 1] (delivery .slotWait s))
      ∧ recordByte (recordOf [5, 1, 0, 0, 1]) 4 = 1 ∧ ((delivery .slotWait s).delivery .l1).state = .slotWait
      ∧ (s.delivery .l1).state ≠ .slotWait
      ∧ executing .linkHold .l1 (recordOf [5, 1, 0, 0, 0]) 3 (on up) ∧ ((on up).head .l1).hold = true
      ∧ ((on up).store .l1).index = []
      ∧ ((on (indexed [arriving] up)).store .l1).index = [arriving] ∧ arriving.state = .arriving ∧ arriving.disposition = none
      ∧ executing .linkHold .l1 (recordOf [5, 1, 0, 0, 0]) 3 (on s) ∧ ((on s).head .l1).hold = true
      ∧ ((on s).store .l1).index = [delivering] ∧ delivering.state = .complete
      ∧ delivering.disposition = some ⟨.deliver, .l0, false⟩ ∧ delivering.delivery = .active ∧ delivering.forward ≠ .pending
      ∧ ((on (indexed [copied] up)).store .l1).index = [copied] ∧ copied.delivery ≠ .pending
      ∧ ((on (indexed [copied] up)).port .l2).state ≠ .run := by
  unfold executing
  decide

/-- Hold goes off under a COPY with both legs PENDING toward a line out of RUN, with a slot for its delivery and with none. -/
theorem witness_LinkHoldSetsOrClearsHold_offers :
    let copied : IndexEntry :=
      { packet 5 30 (some 9) with disposition := some ⟨.copy, .l2, false⟩, delivery := .pending, forward := .pending }
    let d := commanded [5, 1, 0, 0, 0] (updHead .l1 (fun h => { h with hold := true }) (indexed [copied] up))
    executing .linkHold .l1 (recordOf [5, 1, 0, 0, 0]) 3 d ∧ (d.head .l1).hold = true
      ∧ (d.store .l1).index = [copied] ∧ copied.state = .complete ∧ copied.disposition = some ⟨.copy, .l2, false⟩
      ∧ copied.delivery = .pending ∧ copied.forward = .pending ∧ (d.port .l2).state ≠ .run ∧ (d.delivery .l1).state = .idle
      ∧ (d.slot (.completion .l1)).waiting.length < freeSlots (.completion .l1) d
      ∧ 1 ≤ leftBytes copied ⟨.copy, .l2, false⟩ ∧ (d.ring (.fill .l1)).count = 0 ∧ (d.head .l1).expired = false
      ∧ executing .linkHold .l1 (recordOf [5, 1, 0, 0, 0]) 3 (crowded d) ∧ freeSlots (.completion .l1) (crowded d) = 0 := by
  unfold executing
  decide

/-- Hold goes off under a forward that is granted at once, alone and beside a delivery that is offered. -/
theorem witness_LinkHoldSetsOrClearsHold_grants :
    let run (h : IndexEntry) := updPort .l2 (fun p => { p with state := .run })
      (commanded [5, 1, 0, 0, 0] (updHead .l1 (fun h => { h with hold := true }) (indexed [h] up)))
    let copied : IndexEntry :=
      { packet 5 30 (some 9) with disposition := some ⟨.copy, .l2, false⟩, delivery := .pending, forward := .pending }
    ∀ h ∈ [forwarding, copied], executing .linkHold .l1 (recordOf [5, 1, 0, 0, 0]) 3 (run h) ∧ ((run h).head .l1).hold = true
      ∧ ((run h).store .l1).index = [h] ∧ h.disposition.map (·.destination) = some .l2 ∧ h.forward = .pending
      ∧ ((run h).port .l2).state = .run ∧ ((run h).outbound .l2).transmission = .none ∧ present .l2 (run h) .host = false
      ∧ ∀ m ∈ allLines, present .l2 (run h) (.store m) = false ∨ m = .l1 := by
  unfold executing
  decide

theorem witness_SendCancelCompletesTheChains :
    let s := commanded [6, 1] (lineIn .off)
    let with_ (g : Outbound → Outbound) := updOutbound .l1 g s
    let h := with_ (fun o => { o with fetch := .holding, held := some chain })
    executing .sendCancel .l1 (recordOf [6, 1]) 3 s ∧ (s.outbound .l1).cancel = none ∧ (s.outbound .l1).assembly = []
      ∧ (s.outbound .l1).fetch = .waitRecord ∧ (s.outbound .l1).held = none ∧ (s.ring (.send .l1)).count = 0
      ∧ executing .sendCancel .l1 (recordOf [6, 1]) 3 h ∧ (h.outbound .l1).held = some chain ∧ chain.verdict = .valid
      ∧ executing .sendCancel .l1 (recordOf [6, 1]) 3 (posted 1 s) ∧ 1 ≤ ((posted 1 s).ring (.send .l1)).count := by
  unfold executing
  decide

/-- An INVALID chain held, a trailing chain, with a slot free and with none, and an engine that reads or waits. -/
theorem witness_SendCancelCompletesTheChains_begun :
    let with_ (g : Outbound → Outbound) := updOutbound .l1 g (commanded [6, 1] (lineIn .off))
    let i := with_ (fun o => { o with fetch := .holding, held := some ⟨chain.records, .invalid⟩ })
    let a := with_ (fun o => { o with assembly := chain.records })
    executing .sendCancel .l1 (recordOf [6, 1]) 3 i ∧ (i.outbound .l1).held = some ⟨chain.records, .invalid⟩
      ∧ executing .sendCancel .l1 (recordOf [6, 1]) 3 a ∧ (a.outbound .l1).assembly ≠ []
      ∧ (a.slot (.completion .l1)).waiting.length < freeSlots (.completion .l1) a
      ∧ executing .sendCancel .l1 (recordOf [6, 1]) 3 (crowded a) ∧ freeSlots (.completion .l1) (crowded a) = 0
      ∧ executing .sendCancel .l1 (recordOf [6, 1]) 3 (with_ (fun o => { o with fetch := .fetch }))
      ∧ executing .sendCancel .l1 (recordOf [6, 1]) 3
        (with_ (fun o => { o with fetch := .slotWait, waiting := some chain })) := by
  unfold executing
  decide

/-- A held chain, VALID or INVALID, with a record posted behind it. -/
theorem witness_SendCancelCompletesTheChains_held :
    let s (v : Verdict) := posted 1 (updOutbound .l1 (fun o => { o with fetch := .holding, held := some ⟨chain.records, v⟩ })
      (commanded [6, 1] (lineIn .off)))
    executing .sendCancel .l1 (recordOf [6, 1]) 3 (s .valid) ∧ ((s .valid).outbound .l1).cancel = none
      ∧ ((s .valid).outbound .l1).held = some chain ∧ 1 ≤ ((s .valid).ring (.send .l1)).count
      ∧ executing .sendCancel .l1 (recordOf [6, 1]) 3 (s .invalid) ∧ ((s .invalid).outbound .l1).cancel = none
      ∧ ((s .invalid).outbound .l1).held = some ⟨chain.records, .invalid⟩ ∧ 1 ≤ ((s .invalid).ring (.send .l1)).count := by
  unfold executing
  decide

/-- The last entry of the table, and sixteen entries. -/
theorem witness_TheTableIsWrittenAndReadInRanges :
    executing .tableWrite .l1 (recordOf [7, 1, 0, 0, 0, 1, 1]) 3 (commanded [7, 1, 0, 0, 0, 1, 1] running)
      ∧ executing .tableRead .l1 (recordOf [8, 1, 0, 0, 0, 0, 16]) 3 (commanded [8, 1, 0, 0, 0, 0, 16] running) := by
  unfold executing
  decide

theorem witness_TimeSetSetsTheTimeBase :
    let s := commanded [9, 0, 0, 0, 7, 1, 1, 0, 1] running
    s.part.state = .running ∧ s.command.state = .execute ∧ s.command.wait = .none
      ∧ s.command.current = some ⟨3, recordOf [9, 0, 0, 0, 7, 1, 1, 0, 1]⟩
      ∧ commandKind (opcode (recordOf [9, 0, 0, 0, 7, 1, 1, 0, 1])) = some .timeSet
      ∧ checkCommand (recordOf [9, 0, 0, 0, 7, 1, 1, 0, 1]) s = none := by decide

theorem witness_QueryLinkReportsAndClears :
    executing .queryLink .l1 (recordOf [10, 1, 0, 0, 0, 1]) 3 (commanded [10, 1, 0, 0, 0, 1] up)
      ∧ executing .queryLink .l1 (recordOf [10, 1, 0, 0, 1, 0]) 3 (commanded [10, 1, 0, 0, 1, 0] up) := by
  unfold executing
  decide

theorem witness_ConnectCharactersAreTakenAsR12Says :
    (lineIn .listen).part.state = .running ∧ ((lineIn .listen).port .l1).state = .listen
      ∧ symbolCharacter .null ≠ symbolCharacter .hello ∧ symbolCharacter .null ≠ symbolCharacter .ready
      ∧ (lineIn .connect).part.state = .running ∧ ((lineIn .connect).port .l1).state = .connect
      ∧ ((lineIn .connect).port .l1).markPending = false ∧ (1 ≤ 8 ∧ 8 ≤ 8 ∧ 128 = 16 * 8) := by decide

/-- A grant that takes the allowance to 1024 exactly. -/
theorem witness_RunCharactersAreSortedAsR16Says :
    up.part.state = .running ∧ (up.port .l1).state = .run ∧ (up.port .l1).markPending = false
      ∧ ((updCredit .l1 (fun _ => ⟨0, 1008, none⟩) up).credit .l1).allowance + 16 * 1 ≤ 1024
      ∧ ((updPort .l1 (fun p => { p with markPending := true }) up).port .l1).markPending = true
      ∧ up.time.source ≠ .line .l1 := by decide

/-- One state for each clause: the last byte under the maximum length and one at it, the last free byte, the last free entry. -/
theorem witness_AcceptedBytesGoToTheStore :
    let f := updStore .l1 (fun st => { st with maxLength := 5, occupied := 65535 }) (intaking .filling (indexed [arriving] up))
    let m := updStore .l1 (fun st => { st with maxLength := 4 }) f
    let b := updStore .l1 (fun st => { st with occupied := 65535 }) (indexed (List.replicate 2 delivering) up)
    f.part.state = .running ∧ (f.port .l1).state = .run ∧ (f.port .l1).markPending = false ∧ 1 ≤ (f.credit .l1).outstanding
      ∧ f.ddr.wf = true ∧ (f.store .l1).intake = .filling ∧ (f.store .l1).index = [] ++ [arriving]
      ∧ arriving.stored < (f.store .l1).maxLength ∧ (f.store .l1).occupied < (f.store .l1).size
      ∧ (m.store .l1).maxLength ≤ arriving.stored
      ∧ (b.store .l1).intake = .between ∧ (b.store .l1).index.length < 2048 ∧ 0 < (b.store .l1).maxLength
      ∧ (b.store .l1).occupied < (b.store .l1).size ∧ ((intaking .shedding up).store .l1).intake = .shedding := by decide

/-- The same state for a data byte and for an END that meet a full index. -/
theorem witness_DropNewSkipsAndCuts :
    let k := updStore .l1 (fun st => { st with policy := .dropNew, index := List.replicate 2048 delivering }) up
    let c := updStore .l1 (fun st => { st with policy := .dropNew, occupied := 65536 }) (intaking .filling (indexed [arriving] up))
    (k.part.state = .running ∧ (k.port .l1).state = .run ∧ (k.port .l1).markPending = false ∧ 1 ≤ (k.credit .l1).outstanding
      ∧ (k.store .l1).policy = .dropNew ∧ (k.store .l1).intake = .between)
      ∧ (k.store .l1).index.length = 2048
      ∧ (c.store .l1).policy = .dropNew ∧ (c.store .l1).intake = .filling ∧ (c.store .l1).index = [] ++ [arriving]
      ∧ arriving.stored < (c.store .l1).maxLength ∧ (c.store .l1).occupied = (c.store .l1).size := by
  exact ⟨by decide, List.length_replicate, by decide⟩

/-- A store that is full to the byte, with entries free, between packets. -/
theorem witness_DropNewSkipsAndCuts_firstByte :
    let s := updStore .l1 (fun st => { st with policy := .dropNew, occupied := 65536 }) (indexed [delivering] up)
    s.part.state = .running ∧ (s.port .l1).state = .run ∧ (s.port .l1).markPending = false ∧ 1 ≤ (s.credit .l1).outstanding
      ∧ (s.store .l1).policy = .dropNew ∧ (s.store .l1).intake = .between ∧ (s.store .l1).index.length < 2048
      ∧ 0 < (s.store .l1).maxLength ∧ (s.store .l1).occupied = (s.store .l1).size := by decide

/-- An OPEN packet behind a head that is delivered, one that waits to be forwarded, and one under hold; the same heads between packets. -/
theorem witness_PacketsCloseWithTheirEndKind :
    let held : IndexEntry := { delivering with delivery := .pending }
    let f := intaking .filling (indexed [forwarding, arriving] up)
    let h := updHead .l1 (fun h => { h with hold := true }) (intaking .filling (indexed [held, arriving] up))
    let b := indexed [delivering] up
    (openBehind.part.state = .running ∧ (openBehind.port .l1).state = .run ∧ (openBehind.port .l1).markPending = false
      ∧ 1 ≤ (openBehind.credit .l1).outstanding ∧ (openBehind.store .l1).intake = .filling
      ∧ (openBehind.store .l1).index = [delivering] ++ [arriving] ∧ (f.store .l1).index = [forwarding] ++ [arriving]
      ∧ (h.store .l1).index = [held] ++ [arriving] ∧ 1 ≤ (b.credit .l1).outstanding ∧ (b.store .l1).intake = .between
      ∧ (b.store .l1).index = [delivering] ∧ ((intaking .shedding up).store .l1).intake = .shedding)
      ∧ headSettled .l1 openBehind ∧ headSettled .l1 f ∧ headSettled .l1 h ∧ headSettled .l1 b :=
  ⟨by decide, headSettled_of_front (by decide), headSettled_of_front (by decide), headSettled_of_front (by decide),
    headSettled_of_front (by decide)⟩

/-- Table entries FORWARD and DISCARD, and, under DROP, a truncated packet, one that an ABANDON closes and a good one. -/
theorem witness_ClosedHeadsAreDecided :
    let t (a : Action) (h : HeadEngine) : HeadEngine := { h with table := h.table.setIfInBounds 9 ⟨a, .l2, true⟩ }
    let f := updHead .l1 (t .forward) (intaking .filling (indexed [arriving] up))
    let d := updHead .l1 (t .discard) (intaking .filling (indexed [arriving] up))
    let r := updHead .l1 (fun h => { h with badRule := .drop }) f
    let b := updHead .l1 (fun h => { h with badRule := .drop }) (intaking .filling (indexed [{ arriving with truncated := true }] up))
    f.part.state = .running ∧ (f.port .l1).state = .run ∧ (f.port .l1).markPending = false ∧ 1 ≤ (f.credit .l1).outstanding
      ∧ (f.store .l1).intake = .filling ∧ (f.store .l1).index = [arriving] ∧ arriving.disposition = none
      ∧ (f.head .l1).timer = none ∧ (f.head .l1).expired = false ∧ (f.head .l1).flush = none ∧ (f.head .l1).badRule = .keep
      ∧ tableEntry (f.head .l1) 9 = ⟨.forward, .l2, true⟩ ∧ (f.port .l2).state ≠ .run
      ∧ (tableEntry (d.head .l1) 9).action = .discard
      ∧ (r.head .l1).badRule = .drop ∧ tableEntry (r.head .l1) 9 = ⟨.forward, .l2, true⟩ ∧ arriving.truncated = false
      ∧ (b.head .l1).badRule = .drop ∧ (b.store .l1).index = [{ arriving with truncated := true }] := by decide +kernel

/-- A lone END between packets, with UNTAGGED FORWARD toward L2, out of RUN and in RUN with its transmitter free, and with UNTAGGED
DISCARD; and the same of an OPEN packet. -/
theorem witness_ClosedHeadsAreDecided_untagged :
    let t (k : Nat) (a : Action) := updHead .l1 (fun h => { h with table := h.table.setIfInBounds k ⟨a, .l2, true⟩ })
    let run (s : State) := updPort .l2 (fun p => { p with state := .run }) s
    let lone : IndexEntry := ⟨0, .arriving, 0, 0, 0, none, false, none, ⟨0, 0⟩, none, .absent, .absent⟩
    let f := t 256 .forward up
    let g := run (t 9 .forward (intaking .filling (indexed [arriving] up)))
    (closesAsHead .l1 lone f ∧ closesAsHead .l1 lone (t 256 .discard up) ∧ closesAsHead .l1 arriving g)
      ∧ lone.disposition = none ∧ (f.head .l1).timer = none ∧ (f.head .l1).flush = none
      ∧ tableEntry (f.head .l1) 256 = ⟨.forward, .l2, true⟩ ∧ (f.port .l2).state ≠ .run ∧ (f.head .l1).hold = false
      ∧ ((run f).port .l2).state = .run ∧ ((run f).outbound .l2).transmission = .none
      ∧ present .l2 (run f) .host = false ∧ (∀ m ∈ allLines, present .l2 (run f) (.store m) = false)
      ∧ present .l2 g .host = false ∧ (∀ m ∈ allLines, present .l2 g (.store m) = false)
      ∧ (tableEntry ((t 256 .discard up).head .l1) 256).action = .discard := by
  unfold closesAsHead
  decide +kernel

theorem witness_LineErrorsEnterRecover :
    (lineIn .connect).part.state = .running ∧ ((lineIn .connect).port .l1).state = .connect
      ∧ ((lineIn .connect).port .l1).silence = some 0 ∧ ((lineIn .connect).port .l1).handshake = some 0
      ∧ decodeCharacter 0 = .failure ∧ decodeCharacter (symbolCharacter .null) = .symbol .null
      ∧ ((updPort .l1 (fun p => { p with markPending := true }) up).port .l1).markPending = true
      ∧ (up.port .l1).state = .run ∧ (up.port .l1).silence = some 0 ∧ (up.port .l1).markPending = false
      ∧ ((updCredit .l1 (fun _ => ⟨0, 1009, none⟩) up).credit .l1).outstanding = 0
      ∧ 1024 < ((updCredit .l1 (fun _ => ⟨0, 1009, none⟩) up).credit .l1).allowance + 16 * 1 := by decide

/-- The cases of the loss of RUN with no packet in transmission or with a host chain: none OPEN, one OPEN behind a head that is
delivered, one OPEN behind a head that waits to be forwarded, and an INVALID chain held. -/
theorem witness_LineErrorsEnterRecover_lostRun :
    let i := updOutbound .l1 (fun o => { o with fetch := .holding, held := some ⟨chain.records, .invalid⟩ }) chainSent
    let f := intaking .filling (indexed [forwarding, arriving] up)
    ((up.outbound .l1).transmission = .none ∧ (openBehind.port .l1).state = .run ∧ (openBehind.store .l1).intake = .filling
      ∧ (openBehind.store .l1).index = [delivering, arriving] ∧ (openBehind.outbound .l1).transmission = .none
      ∧ (f.outbound .l1).transmission = .none ∧ (f.store .l1).index = [forwarding, arriving]
      ∧ (chainSent.outbound .l1).transmission = .host chain ∧ (chainSent.outbound .l1).held = none
      ∧ (i.outbound .l1).transmission = .host chain ∧ (i.outbound .l1).held = some ⟨chain.records, .invalid⟩
      ∧ (i.ring (.send .l1)).count = 0)
      ∧ (headAtRest .l1 up ∧ headAtRest .l1 openBehind ∧ headAtRest .l1 f) ∧ headAtRest .l1 chainSent ∧ headAtRest .l1 i :=
  ⟨by decide,
    ⟨headAtRest_of_front (by decide) (by decide), headAtRest_of_front (by decide) (by decide),
      headAtRest_of_front (by decide) (by decide)⟩,
    headAtRest_of_front (by decide) (by decide), headAtRest_of_front (by decide) (by decide)⟩

/-- The cases with a forward in transmission, a delivery beside it or none, of the line's own head, with an OPEN packet of its own behind
or none, and of another line's. -/
theorem witness_LineErrorsEnterRecover_lostForward :
    let other := updOutbound .l0 (fun o => { o with transmission := .forward .l1 5 false })
      (updPort .l0 (fun p => { p with state := .run }) forwardBeside)
    let own := updStore .l1 (fun st => { st with intake := .filling, index := st.index ++ [arriving] }) forwardBeside
    ((forwardBeside.outbound .l1).transmission = .forward .l1 5 false ∧ (forwardBeside.store .l1).intake = .between
      ∧ (headEntry .l1 forwardBeside).map (fun h => (h.state, h.disposition, h.delivery))
        = some (.complete, some ⟨.copy, .l1, false⟩, .active)
      ∧ (forwardAlone.outbound .l1).transmission = .forward .l1 5 false ∧ (forwardAlone.store .l1).intake = .between
      ∧ (headEntry .l1 forwardAlone).map (fun h => (h.state, h.disposition, h.delivery))
        = some (.complete, some ⟨.forward, .l1, false⟩, .absent)
      ∧ (forwardAlone.store .l1).index.tail = [arriving] ∧ (lostStore (forwardAlone.store .l1)).index.tail = [arriving]
      ∧ (own.outbound .l1).transmission = .forward .l1 5 false ∧ (own.store .l1).intake = .filling
      ∧ (own.store .l1).index.tail = [arriving] ∧ (other.port .l0).state = .run
      ∧ (other.outbound .l0).transmission = .forward .l1 5 false)
      ∧ quietNext .l1 [arriving] forwardAlone ∧ headAtRest .l0 other :=
  ⟨by decide, quietNext_arriving, headAtRest_of_front (by decide) (by decide)⟩

/-- The head that a cut forward leaves with no live leg, under each of `pressed`, with entries behind it that retire and stay: COMPLETE
ones, and an OPEN packet that closes. -/
theorem witness_LineErrorsEnterRecover_lostForward_retires :
    let h : IndexEntry := { packet 5 30 (some 9) with disposition := some ⟨.copy, .l1, false⟩, delivery := .done, forward := .active }
    let s := pressed (discarding (sending (.forward .l1 5 false) ⟨[], [], []⟩ (indexed (h :: behind) up)))
    let o := intaking .filling (indexed [h, arriving] s)
    let closed : IndexEntry := { arriving with state := .complete, endKind := some .linkLost }
    ((s.port .l1).state = .run ∧ (s.outbound .l1).transmission = .forward .l1 5 false ∧ (s.store .l1).index = h :: behind
      ∧ h.state = .complete ∧ h.disposition = some ⟨.copy, .l1, false⟩ ∧ h.delivery ≠ .pending ∧ h.delivery ≠ .active
      ∧ (⟨.copy, .l1, false⟩ : Disposition).action ≠ .discard ∧ (lostStore (s.store .l1)).index.tail = behind
      ∧ (s.head .l1).expired = true ∧ (s.head .l1).flush = some 3
      ∧ (o.store .l1).intake = .filling ∧ (o.store .l1).index = [h, arriving] ∧ (lostStore (o.store .l1)).index.tail = [closed])
      ∧ quietNext .l1 behind s ∧ quietNext .l1 [closed] o :=
  ⟨by decide, quietNext_of_front (y := packet 7 2 (some 9)) (by decide +kernel) (by decide) (by decide),
    quietNext_of_front (y := { arriving with state := .complete, endKind := some .linkLost }) (by decide +kernel) (by decide)
      (by decide)⟩

/-- The cases with the OPEN packet at the head: the rule DROP, and the table entries DISCARD and FORWARD. -/
theorem witness_LineErrorsEnterRecover_lostHead :
    let s := intaking .filling (indexed [arriving] up)
    let t (a : Action) := updHead .l1 (fun h => { h with table := h.table.setIfInBounds 9 ⟨a, .l1, true⟩ }) s
    let d := updHead .l1 (fun h => { h with badRule := .drop }) s
    (s.port .l1).state = .run ∧ (s.outbound .l1).transmission = .none ∧ (s.store .l1).intake = .filling
      ∧ (s.store .l1).index = [arriving] ∧ arriving.disposition = none ∧ (s.head .l1).timer = none
      ∧ (s.head .l1).expired = false ∧ (s.head .l1).flush = none ∧ (d.head .l1).badRule = .drop
      ∧ ((t .forward).head .l1).badRule = .keep ∧ tableEntry ((t .forward).head .l1) 9 = ⟨.forward, .l1, true⟩
      ∧ (tableEntry ((t .discard).head .l1) 9).action = .discard := by decide +kernel

theorem witness_TheQuietTimeEnds :
    (lineIn .recover).part.state = .running ∧ ((lineIn .recover).port .l1).state = .recover
      ∧ ((lineIn .recover).port .l1).quiet = some 0 := by decide

/-- One state for each of the cases, in order. -/
theorem witness_BoundariesSendTheFirstCaseOfR17 :
    let p (f : LinePort → LinePort) := updPort .l1 f up
    let s := sending (.host chain) ⟨[7], [⟨0x200, 2, none⟩], []⟩ up
    let w := sending (.host chain) ⟨[], [⟨0x200, 2, none⟩], []⟩ up
    ((lineIn .off).port .l1).state = .off ∧ ((lineIn .listen).port .l1).initiative = .passive
      ∧ ((updPort .l1 (fun q => { q with initiative := .active }) (lineIn .listen)).port .l1).initiative = .active
      ∧ ((lineIn .connect).port .l1).state = .connect ∧ (up.port .l1).state = .run
      ∧ ((p (fun q => { q with markValue := some 7 })).port .l1).markValue = some 7
      ∧ ((p (fun q => { q with readyDue := true })).port .l1).readyDue = true
      ∧ ((p (fun q => { q with markSlot := some 7 })).port .l1).markSlot = some 7
      ∧ ((updCredit .l1 (fun _ => ⟨0, 0, some 1⟩) up).credit .l1).offer = some 1
      ∧ (s.port .l1).markValue = none ∧ (s.port .l1).readyDue = false ∧ (s.port .l1).markSlot = none
      ∧ (s.credit .l1).offer = none ∧ (s.outbound .l1).transmission ≠ .none ∧ 1 ≤ (s.credit .l1).allowance
      ∧ (s.outbound .l1).staging.bytes = [7]
      ∧ (up.outbound .l1).transmission = .none ∧ (w.outbound .l1).staging.bytes = [] ∧ (w.outbound .l1).staging.reads ≠ [] := by
  decide

/-- A host packet at its end, with no chain held and with an INVALID one. -/
theorem witness_ClosingCharactersEndHostPackets :
    let s := updCredit .l1 (fun _ => ⟨16, 1, none⟩) chainSent
    let i := updOutbound .l1 (fun o => { o with fetch := .holding, held := some ⟨chain.records, .invalid⟩ }) s
    s.part.state = .running ∧ (s.port .l1).state = .run ∧ (s.port .l1).markValue = none ∧ (s.port .l1).readyDue = false
      ∧ (s.port .l1).markSlot = none ∧ (s.credit .l1).offer = none ∧ 1 ≤ (s.credit .l1).allowance
      ∧ (s.outbound .l1).transmission = .host chain ∧ (s.outbound .l1).staging = ⟨[], [], []⟩ ∧ (s.outbound .l1).held = none
      ∧ (i.outbound .l1).held = some ⟨chain.records, .invalid⟩ ∧ (i.ring (.send .l1)).count = 0 := by decide

theorem witness_CharactersDecodeToWhatWasSent :
    (∀ k, Symbol.grant 8 = .grant k → 1 ≤ k ∧ k ≤ 8) ∧ decodeCharacter 0b1000000000#10 = .data 0
      ∧ decodeCharacter (symbolCharacter (.grant 8)) = .symbol (.grant 8) := by
  refine ⟨?_, by decide, by decide⟩
  rintro k ⟨⟩
  decide

theorem witness_TheEpochMovesAndIsRelayed :
    let i : State := { up with time := ⟨255, 9, .internal, 5, some 0, true, 2⟩ }
    let m : State := updPort .l1 (fun p => { p with markPending := true }) { up with time := ⟨17, 9, .line .l1, 5, none, true, 0⟩ }
    i.part.state = .running ∧ (0 : BitVec 8) = i.time.epoch + 1 ∧ i.time.source = .internal ∧ i.time.timer = some 0
      ∧ m.part.state = .running ∧ m.time.source = .line .l1 ∧ (m.port .l1).state = .run ∧ (m.port .l1).markPending = true := by decide

theorem witness_TheFineCounterCountsMicroseconds :
    running.part.state ≠ .faulted ∧ (after (.anchorReadDone none) (after (.enable 1) State.reset)).part.state = .faulted
      ∧ running.time.timer ≠ some 0 ∧ running.time.source ≠ .internal ∧ (running.port .l0).handshake ≠ some 0
      ∧ (running.port .l0).silence ≠ some 0 ∧ (running.port .l0).quiet ≠ some 0 ∧ (running.head .l0).timer ≠ some 0 := by decide

/-- A head that waits to be forwarded, one offered in SLOT_WAIT, one whose delivery runs, and one stalled in RECORD_WAIT and in
SPARE_WAIT, the latter beside a forward that is PENDING and one that is ACTIVE. -/
theorem witness_ExpiryActsOnTheLegs :
    let f := timedOut (indexed [forwarding, arriving] up)
    let w := timedOut (delivery .write (indexed [delivering, arriving] up))
    let r := timedOut (delivery .recordWait (indexed [delivering, arriving] up))
    let offered : IndexEntry := { delivering with delivery := .pending }
    let copied (x : Leg) : IndexEntry := { delivering with disposition := some ⟨.copy, .l2, false⟩, forward := x }
    let lodged := updSlots (.completion .l1) (fun a => { a with waiting := [.delivery] })
    let o := lodged (timedOut (updDelivery .l1 (fun d => { d with state := .slotWait, leg := true })
      (indexed [offered, arriving] up)))
    let p (x : Leg) := lodged (timedOut (delivery .spareWait (indexed [copied x, arriving] up)))
    f.part.state = .running ∧ (f.head .l1).timer = some 0 ∧ (f.store .l1).index = [forwarding, arriving]
      ∧ forwarding.state = .complete ∧ forwarding.disposition = some ⟨.forward, .l2, false⟩
      ∧ forwarding.delivery ≠ .pending ∧ forwarding.delivery ≠ .active ∧ forwarding.forward = .pending
      ∧ (f.delivery .l1).state = .idle
      ∧ (w.store .l1).index = [delivering, arriving] ∧ delivering.state = .complete ∧ delivering.delivery = .active
      ∧ (w.delivery .l1).state = .write
      ∧ delivering.disposition = some ⟨.deliver, .l0, false⟩ ∧ delivering.forward ≠ .active
      ∧ (r.delivery .l1).state = .recordWait ∧ (r.delivery .l1).spareSlot = false ∧ (r.ring (.fill .l1)).count = 0
      ∧ (o.head .l1).timer = some 0 ∧ (o.store .l1).index = [offered, arriving] ∧ offered.delivery = .pending
      ∧ (o.delivery .l1).state = .slotWait
      ∧ ((p .pending).head .l1).timer = some 0 ∧ ((p .pending).store .l1).index = [copied .pending, arriving]
      ∧ (copied .pending).forward = .pending ∧ ((p .pending).delivery .l1).state = .spareWait
      ∧ ((p .pending).delivery .l1).spareSlot = false
      ∧ ((p .active).store .l1).index = [copied .active, arriving] ∧ (copied .active).forward = .active := by decide

/-- An OPEN entry next, or entries that retire and stay under hold while a flush waits; and a forward in transmission alone. -/
theorem witness_ExpiryActsOnTheLegs_behind :
    let s := pressed (discarding (timedOut (indexed (forwarding :: behind) up)))
    let sent : IndexEntry := { forwarding with forward := .active }
    let a := timedOut (indexed [sent, arriving] up)
    quietNext .l1 [arriving] (timedOut (indexed [forwarding, arriving] up)) ∧ quietNext .l1 behind s
      ∧ (s.head .l1).timer = some 0 ∧ (s.store .l1).index = forwarding :: behind ∧ (s.head .l1).flush = some 3
      ∧ (s.delivery .l1).state = .idle
      ∧ (a.head .l1).timer = some 0 ∧ (a.store .l1).index = [sent, arriving] ∧ sent.delivery ≠ .pending
      ∧ sent.delivery ≠ .active ∧ sent.forward = .active ∧ (a.delivery .l1).state = .idle :=
  ⟨quietNext_arriving, quietNext_of_front (y := packet 7 2 (some 9)) (by decide +kernel) (by decide) (by decide), by decide⟩

/-- A record of the largest size, one 8 bytes larger, and the three states of a stalled leg. -/
theorem witness_FillRecordsAreTakenAndJudged :
    let s := indexed [delivering] up
    s.part.state = .running ∧ (s.store .l1).index = [delivering] ∧ delivering.state = .complete ∧ delivering.disposition ≠ none
      ∧ delivering.delivery = .active ∧ ((delivery .fetch s).delivery .l1).state = .fetch
      ∧ (recordU32 (record 0x8000 65536 5) 8).toNat ≤ 65536 ∧ (recordU32 (record 0x8000 65536 5) 8).toNat % 8 = 0
      ∧ (recordU64 (record 0x8000 65536 5) 0).toNat % 8 = 0 ∧ 65536 < (recordU32 (record 0x8000 65544 5) 8).toNat
      ∧ ((filled 1 s).ring (.fill .l1)).count = 1 ∧ (s.head .l1).expired = false
      ∧ ((delivery .recordWait s).delivery .l1).state = .recordWait ∧ ((delivery .recordWait s).ring (.fill .l1)).count = 0
      ∧ ((filled 1 (delivery .recordWait s)).slot (.completion .l1)).waiting.length
        < freeSlots (.completion .l1) (filled 1 (delivery .recordWait s))
      ∧ freeSlots (.completion .l1) (crowded (filled 1 (delivery .recordWait s))) = 0 := by decide

/-- An invalid record that is the last posted, taken by the leg of an expired head, with entries behind it or a forward beside. -/
theorem witness_FillRecordsAreTakenAndJudged_expired :
    let s := pressed (discarding (filled 1 (delivery .fetch (indexed (delivering :: behind) up))))
    let u : State := { updRing (.fill .l1) (fun g => { g with consumer := g.consumer + 1 }) s with
      bus := s.bus ++ [.progressIndex (s.part.progress + BitVec.ofNat 64 (2 * (6 + lineNumber .l1))) ((s.ring (.fill .l1)).consumer + 1)] }
    ((s.store .l1).index = delivering :: behind ∧ (s.delivery .l1).state = .fetch
      ∧ 65536 < (recordU32 (record 0x8000 65544 5) 8).toNat ∧ (s.ring (.fill .l1)).count = 1 ∧ (s.head .l1).expired = true
      ∧ .delivery ∉ (s.slot (.completion .l1)).waiting ∧ delivering.disposition = some ⟨.deliver, .l0, false⟩
      ∧ u.ring (.fill .l1) = { s.ring (.fill .l1) with consumer := (s.ring (.fill .l1)).consumer + 1 }
      ∧ delivering.forward ≠ .pending ∧ delivering.forward ≠ .active
      ∧ ({ delivering with forward := .pending } : IndexEntry).forward = .pending)
      ∧ frame [.rings, .bus] s u ∧ otherRings (.fill .l1) s u ∧ quietNext .l1 behind s := by
  refine ⟨by decide, ?_, ?_, quietNext_of_front (y := packet 7 2 (some 9)) (by decide +kernel) (by decide) (by decide)⟩
  · intro b hb
    cases b with
    | rings => exact absurd (by decide) hb
    | bus => exact absurd (by decide) hb
    | memory => exact fun _ => ⟨rfl, rfl⟩
    | _ => rfl
  · intro q hq
    cases q with
    | fill n => cases n <;> first | rfl | exact absurd rfl hq
    | _ => rfl

/-- A buffer of 8 bytes that leaves the leg short of a record, one of 64 that completes it, and the sixteenth of 8. -/
theorem witness_BuffersAreWrittenAndReported :
    let s := delivery .write (indexed [delivering, arriving] up)
    let a := updDelivery .l1 (fun d => { d with current := some ⟨⟨3, 0x8000, 8, 77⟩, 0⟩ }) s
    let b := updDelivery .l1 (fun d => { d with current := some ⟨⟨3, 0x8000, 64, 77⟩, 0⟩ }) s
    let c := updDelivery .l1 (fun d => { d with records := List.replicate 16 ⟨3, 0x8000, 8, 77⟩ }) a
    a.part.state = .running ∧ (a.store .l1).index = [delivering, arriving] ∧ delivering.state = .complete
      ∧ delivering.disposition = some ⟨.deliver, .l0, false⟩ ∧ delivering.delivery = .active ∧ (a.delivery .l1).state = .write
      ∧ (a.delivery .l1).current = some ⟨⟨3, 0x8000, 8, 77⟩, 0⟩ ∧ (a.delivery .l1).partialEnd = false
      ∧ (a.delivery .l1).delivered + 8 < (a.delivery .l1).toDeliver ∧ (a.delivery .l1).records.length < 16
      ∧ (a.ring (.fill .l1)).count = 0 ∧ (a.head .l1).expired = false
      ∧ (b.delivery .l1).toDeliver ≤ (b.delivery .l1).delivered + 22 ∧ (b.delivery .l1).short = false
      ∧ delivering.forward ≠ .pending ∧ delivering.forward ≠ .active
      ∧ 1 ≤ ((filled 1 a).ring (.fill .l1)).count
      ∧ ((filled 1 a).slot (.completion .l1)).waiting.length < freeSlots (.completion .l1) (filled 1 a)
      ∧ freeSlots (.completion .l1) (crowded (filled 1 a)) ≤ ((crowded (filled 1 a)).slot (.completion .l1)).waiting.length
      ∧ 16 ≤ (c.delivery .l1).records.length ∧ (c.delivery .l1).delivered + 8 < (c.delivery .l1).toDeliver := by decide

/-- The head of the last buffer is expired and a flush waits for it, with entries behind it that retire and stay; the leg completes, or
ends partial for want of a record or of a slot; and a COPY whose forward is live. -/
theorem witness_BuffersAreWrittenAndReported_retires :
    let s (size : BitVec 32) := pressed (discarding (updDelivery .l1 (fun d => { d with current := some ⟨⟨3, 0x8000, size, 77⟩, 0⟩ })
      (delivery .write (indexed (delivering :: behind) up))))
    let copied : IndexEntry := { delivering with disposition := some ⟨.copy, .l2, false⟩, forward := .active }
    (((s 64).store .l1).index = delivering :: behind ∧ ((s 64).delivery .l1).state = .write
      ∧ ((s 64).delivery .l1).current = some ⟨⟨3, 0x8000, 64, 77⟩, 0⟩ ∧ ((s 64).delivery .l1).short = false
      ∧ ((s 64).delivery .l1).toDeliver ≤ ((s 64).delivery .l1).delivered + 22 ∧ ((s 64).head .l1).expired = true
      ∧ ((s 64).head .l1).flush = some 3 ∧ (⟨.deliver, .l0, false⟩ : Disposition).action ≠ .discard
      ∧ ((s 8).delivery .l1).delivered + 8 < ((s 8).delivery .l1).toDeliver ∧ ((s 8).delivery .l1).records.length < 16
      ∧ ((s 8).delivery .l1).spareSlot = false ∧ .delivery ∉ ((s 8).slot (.completion .l1)).waiting
      ∧ ((s 8).ring (.fill .l1)).count = 0
      ∧ freeSlots (.completion .l1) (crowded (filled 1 (s 8))) ≤ ((crowded (filled 1 (s 8))).slot (.completion .l1)).waiting.length
      ∧ copied.state = .complete ∧ copied.delivery = .active ∧ copied.forward = .active)
      ∧ quietNext .l1 behind (s 64) ∧ quietNext .l1 [arriving] (delivery .write (indexed [delivering, arriving] up)) := by
  exact ⟨by decide, quietNext_of_front (y := packet 7 2 (some 9)) (by decide +kernel) (by decide) (by decide),
    quietNext_arriving⟩

/-- A record that goes on, the last of a VALID chain, a sixteenth that goes on, alone and behind a host chain in transmission, and a
full completion ring. -/
theorem witness_SendRecordsMakeChains :
    let s := posted 1 (updOutbound .l1 (fun o => { o with fetch := .fetch }) (lineIn .off))
    let l := updOutbound .l1 (fun o => { o with assembly := List.replicate 15 ⟨0, 0x100, 3, true, false, 1⟩ }) s
    let h := updOutbound .l1 (fun o => { o with transmission := .host chain }) l
    s.part.state = .running ∧ (s.outbound .l1).fetch = .fetch ∧ (s.outbound .l1).cancel = none ∧ (s.outbound .l1).held = none
      ∧ (s.ring (.send .l1)).count = 1 ∧ (record 0x100 0x10003 5).getLsbD 80 = true ∧ (record 0x100 3 5).getLsbD 80 = false
      ∧ (s.outbound .l1).assembly.length < 15 ∧ (l.outbound .l1).assembly.length = 15
      ∧ (s.slot (.completion .l1)).waiting.length < freeSlots (.completion .l1) s ∧ (s.port .l1).state ≠ .run
      ∧ (s.outbound .l1).transmission = .none ∧ freeSlots (.completion .l1) (crowded s) = 0
      ∧ (h.outbound .l1).transmission = .host chain ∧ (h.outbound .l1).assembly.length = 15
      ∧ (h.slot (.completion .l1)).waiting.length < freeSlots (.completion .l1) h
      ∧ 2 ≤ ((posted 2 s).ring (.send .l1)).count ∧ ((posted 2 s).port .l1).configured = true := by decide

/-- L2 in RUN with L1's head waiting, and L1 in RUN with its ready chain. -/
theorem witness_TheArbiterGrantsInCyclicOrder :
    let s := updPort .l2 (fun p => { p with state := .run }) (indexed [forwarding] up)
    let h := updOutbound .l1 (fun o => { o with fetch := .holding, held := some chain }) up
    (State.reset.port .l2).state ≠ .run ∧ (s.port .l2).state = .run ∧ (s.outbound .l2).transmission = .none
      ∧ present .l2 s (.store .l1) = true ∧ present .l2 s .host = false ∧ present .l2 s (.store .l0) = false
      ∧ present .l1 h .host = true ∧ turnsBefore (h.outbound .l1).lastWinner .host = 0
      ∧ ((posted 1 up).outbound .l1).fetch = .waitRecord ∧ ((posted 1 up).outbound .l1).held = none
      ∧ ((posted 1 up).outbound .l1).cancel = none ∧ ((posted 1 up).port .l1).configured = true
      ∧ 1 ≤ ((posted 1 up).ring (.send .l1)).count := by decide

theorem witness_PacketReadsAreStagedInOrder :
    let s := sending (.host chain) ⟨[1], [⟨0x100, 3, none⟩, ⟨0x200, 2, some [8, 9]⟩], []⟩ up
    let f := sending (.forward .l1 5 false) ⟨[], [⟨100, 3, none⟩], []⟩ (indexed [forwarding] up)
    s.part.state = .running ∧ (s.outbound .l1).transmission = .host chain ∧ (s.outbound .l1).staging.todo = []
      ∧ (s.outbound .l1).staging.reads = [⟨0x100, 3, none⟩, ⟨0x200, 2, some [8, 9]⟩] ∧ ([5, 6, 7] : List Byte).length = 3
      ∧ (f.outbound .l1).transmission = .forward .l1 5 false ∧ headEntry .l1 f = some forwarding
      ∧ (f.outbound .l1).staging.reads = [⟨100, 3, none⟩] ∧ (f.outbound .l1).staging.todo = []
      ∧ (∀ k, k < 3 → f.ddr.bad ((f.store .l1).address (100 + k)) = false)
      ∧ (after (.ddrWordCorrupted 16396) f).ddr.bad ((f.store .l1).address (100 + 0)) = true := by decide

/-- A record that goes on, one that makes a chain whole, with a slot and with none, one at the limit, and a chain in its slot. -/
theorem witness_CancelsGoOnToTheirLimit :
    let s (limit : BitVec 16) := posted 2 (updOutbound .l1 (fun o => { o with fetch := .fetch, cancel := some ⟨limit, 0, 0⟩ })
      (lineIn .off))
    let w (limit : BitVec 16) := updSlots (.completion .l1) (fun a => { a with waiting := [.outbound] })
      (updOutbound .l1 (fun o => { o with fetch := .slotWait, waiting := some chain }) (s limit))
    (s 2).part.state = .running ∧ ((s 2).outbound .l1).fetch = .fetch ∧ ((s 2).outbound .l1).cancel = some ⟨2, 0, 0⟩
      ∧ (record 0x100 0x10003 5).getLsbD 80 = true ∧ (record 0x100 3 5).getLsbD 80 = false
      ∧ ((s 2).outbound .l1).assembly.length < 15 ∧ ((s 2).ring (.send .l1)).consumer + 1 ≠ 2
      ∧ ((s 1).ring (.send .l1)).consumer + 1 = 1 ∧ 2 ≤ ((s 2).ring (.send .l1)).count
      ∧ ((s 2).slot (.completion .l1)).waiting.length < freeSlots (.completion .l1) (s 2)
      ∧ freeSlots (.completion .l1) (crowded (s 2)) = 0 ∧ freeSlots (.completion .l1) (crowded (s 1)) = 0
      ∧ ((w 2).slot (.completion .l1)).waiting = [.outbound] ∧ 1 ≤ freeSlots (.completion .l1) (w 2)
      ∧ ((w 2).outbound .l1).waiting = some chain ∧ ((w 2).outbound .l1).assembly = []
      ∧ ((w 0).ring (.send .l1)).consumer = 0 ∧ ((w 2).ring (.send .l1)).consumer ≠ 2
      ∧ 1 ≤ ((w 2).ring (.send .l1)).count := by decide

/-- A state for each clause: hold, no slot free, an empty fill ring, a record posted, and a tag that is the whole packet. -/
theorem witness_DecidedHeadsAreDelivered :
    let s := intaking .filling (indexed [arriving] up)
    let t (a : Action) (h : HeadEngine) : HeadEngine := { h with table := h.table.setIfInBounds 9 ⟨a, .l2, true⟩ }
    let c := updHead .l1 (t .copy) s
    let tagOnly : IndexEntry := { arriving with stored := 1, received := 1 }
    let z := updHead .l1 (t .deliver) (intaking .filling (indexed [tagOnly] up))
    s.part.state = .running ∧ (s.port .l1).state = .run ∧ (s.port .l1).markPending = false ∧ 1 ≤ (s.credit .l1).outstanding
      ∧ (s.store .l1).intake = .filling ∧ (s.store .l1).index = [arriving] ∧ arriving.disposition = none
      ∧ (s.head .l1).timer = none ∧ (s.head .l1).expired = false ∧ (s.head .l1).flush = none ∧ (s.head .l1).badRule = .keep
      ∧ (s.delivery .l1).state = .idle ∧ tableEntry (s.head .l1) 9 = ⟨.deliver, .l0, false⟩
      ∧ tableEntry (c.head .l1) 9 = ⟨.copy, .l2, true⟩ ∧ (c.port .l2).state ≠ .run
      ∧ (s.head .l1).hold = false ∧ ((updHead .l1 (fun h => { h with hold := true }) s).head .l1).hold = true
      ∧ freeSlots (.completion .l1) (crowded s) = 0
      ∧ (s.slot (.completion .l1)).waiting.length + 1 < freeSlots (.completion .l1) s
      ∧ 1 ≤ leftBytes arriving ⟨.deliver, .l0, false⟩ ∧ (s.ring (.fill .l1)).count = 0
      ∧ 1 ≤ ((filled 1 s).ring (.fill .l1)).count
      ∧ (z.store .l1).index = [tagOnly] ∧ tableEntry (z.head .l1) 9 = ⟨.deliver, .l2, true⟩
      ∧ leftBytes tagOnly ⟨.deliver, .l2, true⟩ = 0 := by decide +kernel

/-- An END between packets that is a whole packet, with UNTAGGED DELIVER and COPY; and a COPY toward L2 in RUN with its transmitter
free. -/
theorem witness_DecidedHeadsAreDelivered_untagged :
    let lone : IndexEntry := ⟨0, .arriving, 0, 0, 0, none, false, none, ⟨0, 0⟩, none, .absent, .absent⟩
    let c := updHead .l1 (fun h => { h with table := h.table.setIfInBounds 256 ⟨.copy, .l2, true⟩ }) up
    let g := updPort .l2 (fun p => { p with state := .run }) c
    (closesAsHead .l1 lone up ∧ closesAsHead .l1 lone c ∧ closesAsHead .l1 lone g)
      ∧ lone.disposition = none ∧ (c.head .l1).badRule = .keep ∧ (c.delivery .l1).state = .idle ∧ (c.head .l1).hold = false
      ∧ tableEntry (up.head .l1) 256 = ⟨.deliver, .l0, false⟩ ∧ tableEntry (c.head .l1) 256 = ⟨.copy, .l2, true⟩
      ∧ (c.port .l2).state ≠ .run ∧ leftBytes lone ⟨.copy, .l2, true⟩ = 0
      ∧ (c.slot (.completion .l1)).waiting.length < freeSlots (.completion .l1) c
      ∧ (g.port .l2).state = .run ∧ (g.outbound .l2).transmission = .none ∧ present .l2 g .host = false
      ∧ (∀ m ∈ allLines, present .l2 g (.store m) = false) := by
  unfold closesAsHead
  decide +kernel

/-- L2 has sent the last byte of L1's head, which has a delivery leg beside, or none. -/
theorem witness_ForwardsEndAndSettleTheirHead :
    let sent (h : IndexEntry) := updOutbound .l2 (fun o => { o with transmission := .forward .l1 5 false })
      (updPort .l2 (fun p => { p with state := .run }) (updCredit .l2 (fun _ => ⟨0, 1, none⟩) (indexed [h, arriving] up)))
    let c : IndexEntry := { delivering with disposition := some ⟨.copy, .l2, false⟩, forward := .active }
    let f : IndexEntry := { forwarding with forward := .active }
    (sent c).part.state = .running ∧ ((sent c).port .l2).state = .run ∧ ((sent c).port .l2).markValue = none
      ∧ ((sent c).port .l2).readyDue = false ∧ ((sent c).port .l2).markSlot = none ∧ ((sent c).credit .l2).offer = none
      ∧ 1 ≤ ((sent c).credit .l2).allowance ∧ ((sent c).outbound .l2).transmission = .forward .l1 5 false
      ∧ ((sent c).outbound .l2).staging = ⟨[], [], []⟩ ∧ ((sent c).store .l1).index = [c, arriving] ∧ c.state = .complete
      ∧ c.disposition = some ⟨.copy, .l2, false⟩ ∧ c.delivery = .active
      ∧ ((sent f).store .l1).index = [f, arriving] ∧ f.state = .complete ∧ f.disposition = some ⟨.forward, .l2, false⟩
      ∧ f.delivery ≠ .pending ∧ f.delivery ≠ .active := by decide

/-- The head is expired and a flush waits for it, with entries behind it that retire and stay; and an OPEN entry next. -/
theorem witness_ForwardsEndAndSettleTheirHead_behind :
    let f : IndexEntry := { forwarding with forward := .active }
    let s := pressed (discarding (updOutbound .l2 (fun o => { o with transmission := .forward .l1 5 false })
      (updPort .l2 (fun p => { p with state := .run }) (updCredit .l2 (fun _ => ⟨0, 1, none⟩) (indexed (f :: behind) up)))))
    ((s.outbound .l2).transmission = .forward .l1 5 false ∧ (s.outbound .l2).staging = ⟨[], [], []⟩
      ∧ (s.store .l1).index = f :: behind ∧ f.disposition = some ⟨.forward, .l2, false⟩
      ∧ (⟨.forward, .l2, false⟩ : Disposition).action ≠ .discard ∧ (s.head .l1).expired = true ∧ (s.head .l1).flush = some 3)
      ∧ quietNext .l1 behind s ∧ quietNext .l1 [arriving] up :=
  ⟨by decide,
    quietNext_of_front (y := packet 7 2 (some 9)) (by decide +kernel) (by decide) (by decide), quietNext_arriving⟩

theorem witness_PacketReadsAreIssuedAhead :
    (chainSent.outbound .l1).transmission = .host chain
      ∧ (forwardAlone.outbound .l1).transmission = .forward .l1 5 false := by decide

/-- A step from a state with the law, for each law that every step keeps. -/
theorem witness_EveryStepKeepsTheMemoryCanonical :
    let s : State := { updDdr (fun d => d.write 5 7) running with pending := [.ddrWordCorrupted 5] }
    s.ddr.wf = true ∧ ∃ t, step s = .next t := ⟨by decide, _, rfl⟩

theorem witness_EveryStepKeepsTheStoreAndCreditLaws :
    let s : State := { intaking .filling (indexed [delivering, arriving] up) with pending := [.rxRunChar .l1 (dataCharacter 7)] }
    storeCreditLaw s ∧ ∃ t, step s = .next t := by
  refine ⟨⟨?_, ?_⟩, _, rfl⟩
  · intro n
    refine ⟨?_, ?_, ?_, ?_⟩
    · cases n <;> decide
    · cases n <;> decide
    · cases n <;> exact fun k hk => nomatch hk
    · cases n <;> decide
  · intro n
    refine ⟨?_, ?_⟩
    · unfold storeLaw
      cases n <;> decide
    · intro _
      refine ⟨?_, ?_, ?_⟩
      · cases n <;> decide
      · cases n <;> decide
      · cases n <;> exact fun k hk => nomatch hk

/-- L1's delivery engine reads a posted record with its packet slot and its spare slot. -/
theorem witness_EveryStepKeepsTheRingLaws :
    let s : State := { updDelivery .l1 (fun d => { d with spareSlot := true })
        (updSlots (.completion .l1) (fun a => { a with reserved := 2 }) (filled 1 (delivery .fetch (indexed [delivering] up)))) with
      pending := [.fillRecordReadDone .l1 (some (record 0x8000 64 5))] }
    ringLaws s ∧ ∃ t, step s = .next t := by
  refine ⟨⟨⟨?_, ?_⟩, ⟨?_, ?_, ?_, ?_, ?_⟩, ⟨?_, ?_, ?_⟩, ?_, ?_⟩, _, rfl⟩
  · intro n
    refine ⟨?_, ?_, ?_, ?_⟩
    · cases n <;> decide
    · cases n <;> decide
    · cases n <;> exact fun k hk => nomatch hk
    · cases n <;> decide
  · intro n
    refine ⟨?_, ?_⟩
    · unfold storeLaw
      cases n <;> decide
    · intro _
      refine ⟨?_, ?_, ?_⟩
      · cases n <;> decide
      · cases n <;> decide
      · cases n <;> exact fun k hk => nomatch hk
  · intro r
    rcases r with _ | _ | n | n | n <;> (try cases n) <;> decide
  · intro p
    unfold partRingLaw
    rcases p with _ | n
    · decide
    · cases n <;> decide
  · intro n
    cases n <;> decide
  · decide
  · decide
  · intro r
    unfold hostRingLaw
    rcases r with _ | _ | n | n | n <;> (try cases n) <;> decide
  · decide
  · intro n
    cases n <;> decide
  · intro n
    refine ⟨?_, ?_, ?_⟩
    · cases n <;> decide
    · cases n <;> decide
    · cases n
      · exact fun h => absurd rfl h
      · exact fun _ => ⟨delivering, [], by decide⟩
      · exact fun h => absurd rfl h
      · exact fun h => absurd rfl h
  · exact fun h => absurd h (by decide)

theorem witness_EveryStepKeepsTheNoticesInOrder :
    let s : State := { setHeld [⟨.linkState .l1 .listen .none, 5⟩, ⟨.linkState .l3 .listen .none, 255⟩] (lineIn .recover) with
      pending := [.quietTimerExpiry .l1] }
    heldInOrder s.held ∧ ∃ t, step s = .next t := by
  refine ⟨?_, _, rfl⟩
  unfold heldInOrder
  decide

/-- L1 holds 128 to 192 KiB, and L2 takes what follows. -/
theorem witness_EveryStepKeepsTheRegionsApart :
    let s : State := { commanded
        ([1, 2, 0, 0, 0, 0, 3, 0, 0, 0, 1, 0, 16, 0, 5, 0, 100, 0]) (lineIn .off) with pending := [.linkConfigure] }
    regionLaw s ∧ ∃ t, step s = .next t := by
  refine ⟨?_, _, rfl⟩
  intro n
  cases n
  · exact fun h => absurd h (by decide)
  · refine fun _ => ⟨by decide, by decide, by decide, by decide, by decide, ?_⟩
    intro m
    cases m
    · exact fun _ h => absurd h (by decide)
    · exact fun h => absurd rfl h
    · exact fun _ h => absurd h (by decide)
    · exact fun _ h => absurd h (by decide)
  · exact fun h => absurd h (by decide)
  · exact fun h => absurd h (by decide)


theorem witness_EveryStepKeepsLinesOffOutsideRunning :
    let s : State := { State.reset with pending := [.enable 1] }
    offUnlessRunning s ∧ s.part.state ≠ .running ∧ ∃ t, step s = .next t :=
  ⟨fun _ n => by cases n <;> decide, by decide, _, rfl⟩

theorem witness_EveryStepDecidesOnlyTheHead :
    let s : State := { intaking .filling (indexed [delivering, arriving] up) with pending := [.rxRunChar .l1 (symbolCharacter .close)] }
    onlyHeadDecided s ∧ ∃ t, step s = .next t := by
  refine ⟨?_, _, rfl⟩
  intro n
  cases n <;> decide

/-- The last buffer of a head with a COMPLETE entry behind it. -/
theorem witness_EveryStepSettlesTheHeads :
    let s : State := { updDelivery .l1 (fun d => { d with current := some ⟨⟨3, 0x8000, 64, 77⟩, 0⟩ })
        (delivery .write (indexed [delivering, packet 6 4 (some 9)] up)) with pending := [.deliveryBufferDone .l1] }
    headsSettled s ∧ onlyHeadDecided s ∧ ∃ t, step s = .next t := by
  refine ⟨?_, ?_, _, rfl⟩
  · intro _ n e he _
    cases n
    · exact nomatch he
    · obtain rfl : e = delivering := by
        have h : headEntry .l1 (indexed [delivering, packet 6 4 (some 9)] up) = some delivering := by decide
        exact Option.some.inj (he.symm.trans h)
      exact ⟨by decide, by decide, fun _ _ => by decide⟩
    · exact nomatch he
    · exact nomatch he
  · intro n
    cases n <;> decide

/-- The COMPLETE entry behind a head that retires is the head after the step, decided by its tag. -/
theorem witness_EveryStepSettlesTheHeads_decided :
    let s := updDelivery .l1 (fun d => { d with current := some ⟨⟨3, 0x8000, 64, 77⟩, 0⟩ })
      (delivery .write (indexed [delivering, packet 6 4 (some 9)] up))
    (headEntry .l1 (after (.deliveryBufferDone .l1) s)).map (fun e => (e.sequence, e.disposition))
      = some (6, some ⟨.deliver, .l0, false⟩) := by decide +kernel

/-- A head decided before the step that stays, its sequence number its own. -/
theorem witness_EveryStepSettlesTheHeads_kept :
    let s : State := { intaking .filling (indexed [delivering, arriving] up) with pending := [.rxRunChar .l1 (symbolCharacter .close)] }
    (s.store .l1).index = [delivering, arriving] ∧ delivering.disposition = some ⟨.deliver, .l0, false⟩
      ∧ (headEntry .l1 (after (.rxRunChar .l1 (symbolCharacter .close)) { s with pending := [] })).map (·.sequence) = some 5
      ∧ arriving.sequence ≠ delivering.sequence ∧ (s.store .l1).sequence ≠ delivering.sequence := by decide

theorem witness_TheEpochChangesAtFourEventsOnly :
    let s : State := { running with time := ⟨255, 9, .internal, 5, some 0, true, 2⟩ }
    wellFormed .periodTimerExpiry = true ∧ exec .periodTimerExpiry s = .next (after .periodTimerExpiry s)
      ∧ (after .periodTimerExpiry s).time.epoch ≠ s.time.epoch := ⟨by decide, rfl, by decide⟩

end Sys2Proof.Tests
end

section
/-! SUPPORT. What a write to CONTROL and the return of the anchor record do (R157 to R159), each branch said once. -/

namespace Sys2Proof.Machine

/-! ## Writes to CONTROL (R157) -/

theorem exec_enable (w : BitVec 32) (s : State) : exec (.enable w) s = .next (writeControl w s) := rfl

/-- RESET is a write to CONTROL too, of all four lanes. -/
theorem exec_reset (w : BitVec 32) (s : State) : exec (.reset w) s = .next (writeControl w s) := rfl

/-- RESET set decides alone. -/
theorem writeControl_of_reset {w : BitVec 32} (hr : controlReset w = true) (s : State) :
    writeControl w s = partReset s := by simp [writeControl, hr]

theorem writeControl_of_enable {w : BitVec 32} {s : State} (hr : controlReset w = false) (he : controlEnable w = true)
    (hs : s.part.state = .halted) : writeControl w s = beginLoad s := by simp [writeControl, hr, he, hs]

/-- ENABLE is acted on in HALTED alone. -/
theorem writeControl_of_not_halted {w : BitVec 32} {s : State} (hr : controlReset w = false)
    (hs : s.part.state ≠ .halted) : writeControl w s = s := by simp [writeControl, hr, hs]

theorem writeControl_of_neither {w : BitVec 32} (hr : controlReset w = false) (he : controlEnable w = false)
    (s : State) : writeControl w s = s := by simp [writeControl, hr, he]

/-- A part reset leaves the part in HALTED with the anchor address 0 (R156). -/
@[simp] theorem partReset_part (s : State) : (partReset s).part = PartUnit.reset := rfl

theorem partReset_halted (s : State) : (partReset s).part.state = .halted := rfl

/-- An aligned anchor address takes the part into LOADING (R158). -/
theorem beginLoad_loading {s : State} (ha : s.part.anchor.toNat % 256 = 0) :
    (beginLoad s).part.state = .loading := by simp [beginLoad, ha]

theorem exec_anchorReadDone (data : Option AnchorRecord) (s : State) :
    exec (.anchorReadDone data) s = execAnchorReadDone data s := rfl

/-- Outside LOADING what the read of the anchor record returns is discarded (R158). -/
theorem exec_anchorReadDone_of_not_loading {s : State} (hs : s.part.state ≠ .loading) (data : Option AnchorRecord) :
    exec (.anchorReadDone data) s = .next s := by
  simp [exec_anchorReadDone, execAnchorReadDone, hs]

/-! ## Rings by rising number (R163) -/

theorem mem_allRings (r : RingId) : r ∈ allRings := by
  cases r with
  | command => decide
  | notice => decide
  | send n => cases n <;> decide
  | fill n => cases n <;> decide
  | completion n => cases n <;> decide

theorem allRings_rising : allRings.Pairwise (fun q r => ringNumber q < ringNumber r) := by decide

/-- The search of the rings finds the lowest-numbered one with a property. -/
theorem find_allRings_of_lowest {p : RingId → Bool} {r : RingId} (hr : p r = true)
    (low : ∀ q, ringNumber q < ringNumber r → p q = false) : allRings.find? p = some r := by
  obtain ⟨before, behind, parts⟩ := List.append_of_mem (mem_allRings r)
  have rising := parts ▸ allRings_rising
  have lower : ∀ q ∈ before, ringNumber q < ringNumber r :=
    fun q hq => (List.pairwise_append.mp rising).2.2 q hq r List.mem_cons_self
  exact List.find?_eq_some_iff_append.mpr
    ⟨hr, before, behind, parts, fun q hq => by simp [low q (lower q hq)]⟩

/-! ## The anchor record (R159, 10.3) -/

/-- The fields of a ring's descriptor by byte offset: 16 bytes for each ring. -/
theorem anchorBase_eq (a : AnchorRecord) (r : RingId) :
    anchorBase a r = a.extractLsb' (8 * (16 * ringNumber r)) 64 := by
  unfold anchorBase
  congr 1
  omega

theorem anchorExponent_eq (a : AnchorRecord) (r : RingId) :
    anchorExponent a r = a.extractLsb' (8 * (16 * ringNumber r + 8)) 8 := by
  unfold anchorExponent
  congr 1
  omega

theorem anchorVector_eq (a : AnchorRecord) (r : RingId) :
    anchorVector a r = a.extractLsb' (8 * (16 * ringNumber r + 9)) 8 := by
  unfold anchorVector
  congr 1
  omega

/-- Check 2 of R159 for one ring: 8 to 4096 entries, a base that is aligned and not 0, and one of the 32 vectors. -/
theorem anchorRingGood_iff {a : AnchorRecord} {r : RingId} :
    anchorRingGood a r = true ↔
      3 ≤ (anchorExponent a r).toNat ∧ (anchorExponent a r).toNat ≤ 12 ∧ anchorBase a r ≠ 0
        ∧ (anchorBase a r).toNat % 64 = 0 ∧ (anchorVector a r).toNat ≤ 31 := by
  have zero : (anchorBase a r).toNat = 0 ↔ anchorBase a r = 0 := by simp [BitVec.toNat_eq]
  simp [anchorRingGood, zero, and_assoc]

/-- Each ring of the table that a record gives is the one of its descriptor. -/
theorem anchorRings_get (a : AnchorRecord) (r : RingId) : (anchorRings a).get r = anchorRing a r := by
  cases r with
  | command => rfl
  | notice => rfl
  | send n => cases n <;> rfl
  | fill n => cases n <;> rfl
  | completion n => cases n <;> rfl

theorem anchorFailure_of_format {a : AnchorRecord} (hf : anchorFormat a ≠ 1) : anchorFailure a = some 0x02 :=
  if_pos hf

/-- Behind a good format, the lowest-numbered bad ring is the failure. -/
theorem anchorFailure_of_ring {a : AnchorRecord} {r : RingId} (hf : anchorFormat a = 1)
    (hr : anchorRingGood a r = false) (low : ∀ q, ringNumber q < ringNumber r → anchorRingGood a q = true) :
    anchorFailure a = some (BitVec.ofNat 8 (0x40 + ringNumber r)) := by
  have found : allRings.find? (fun q => !anchorRingGood a q) = some r :=
    find_allRings_of_lowest (by simp [hr]) fun q hq => by simp [low q hq]
  simp [anchorFailure, hf, found]

/-- Behind a good format and good rings, the progress address decides. -/
theorem anchorFailure_of_rings_good {a : AnchorRecord} (hf : anchorFormat a = 1) (hr : ∀ r, anchorRingGood a r = true) :
    anchorFailure a = if (anchorProgress a).toNat % 64 ≠ 0 then some 0x03 else none := by
  have found : allRings.find? (fun q => !anchorRingGood a q) = none :=
    List.find?_eq_none.mpr fun q _ => by simp [hr q]
  simp [anchorFailure, hf, found]

/-- What entry to FAULTED makes of the part unit (R161). -/
@[simp] theorem enterFaulted_part (cause : FaultCause) (detail : BitVec 8) (s : State) :
    (enterFaulted cause detail s).part = { s.part with state := .faulted, cause := cause, detail := detail } := by
  simp [enterFaulted, allLines]

theorem exec_anchorReadDone_of_loading {s : State} (hs : s.part.state = .loading) (a : AnchorRecord) :
    exec (.anchorReadDone (some a)) s = .next (validateAnchor a s) := by
  simp [exec_anchorReadDone, execAnchorReadDone, hs]

/-- A record that fails a check takes the part into FAULTED with that check's detail, and nothing is written (R159, R161). -/
theorem validateAnchor_of_failure {a : AnchorRecord} {detail : BitVec 8} (hf : anchorFailure a = some detail) (s : State) :
    (validateAnchor a s).part = { s.part with state := .faulted, cause := .anchorInvalid, detail := detail }
      ∧ (validateAnchor a s).bus = s.bus := by
  simp [validateAnchor, hf]

theorem validateAnchor_of_valid {a : AnchorRecord} (hf : anchorFailure a = none) (s : State) :
    validateAnchor a s = enterRunning a s := by
  simp [validateAnchor, hf]

/-- Entry to RUNNING touches the part unit, the rings and the bus alone (R159). -/
theorem enterRunning_frame (a : AnchorRecord) (s : State) : frame [.part, .rings, .bus] s (enterRunning a s) := by
  intro b hb
  cases b with
  | part => exact absurd (by decide) hb
  | rings => exact absurd (by decide) hb
  | bus => exact absurd (by decide) hb
  | memory => exact fun _ => ⟨rfl, rfl⟩
  | _ => rfl

theorem enterRunning_ring (a : AnchorRecord) (s : State) (r : RingId) : (enterRunning a s).ring r = anchorRing a r :=
  anchorRings_get a r

/-! ## The statements -/

/-- Settles O3: each form of the word is one branch of `writeControl`. For two writes in a row, a part reset leaves HALTED, where the
record's return is discarded, and the anchor address 0, from which an ENABLE loads. -/
theorem controlWritesAreTakenAsR157Says : Obligations.ControlWritesAreTakenAsR157Says := by
  refine ⟨?reset, ?enable, ?elsewhere, ?neither, ?resetLast, ?enableLast⟩
  case reset =>
    intro w s hr
    simp [exec_reset, exec_enable, writeControl_of_reset hr]
  case enable =>
    intro w s hr he hs
    exact ⟨by rw [exec_enable, writeControl_of_enable hr he hs], beginLoad_loading⟩
  case elsewhere =>
    intro w s hr _ hs
    rw [exec_enable, writeControl_of_not_halted hr hs]
  case neither =>
    intro w s hr he
    simp [exec_reset, exec_enable, writeControl_of_neither hr he]
  case resetLast =>
    intro v w s t u _ _ hw _ hu
    rw [exec_reset, writeControl_of_reset hw] at hu
    cases hu
    exact ⟨partReset_halted t, exec_anchorReadDone_of_not_loading (by simp [PartUnit.reset])⟩
  case enableLast =>
    intro v w s t u hv hr he ht hu
    rw [exec_reset, writeControl_of_reset hv] at ht
    cases ht
    rw [exec_enable, writeControl_of_enable hr he (partReset_halted s)] at hu
    cases hu
    exact beginLoad_loading (by simp [PartUnit.reset])

/-- Settles O10: the record's first failed check is `anchorFailure`, found for a ring because the search goes by rising number, and the
part goes to FAULTED with it or, with none, to RUNNING. -/
theorem theAnchorRecordDecidesRunningOrFaulted : Obligations.TheAnchorRecordDecidesRunningOrFaulted := by
  intro a s hs
  simp only [← anchorRingGood_iff, Bool.not_eq_true]
  refine ⟨validateAnchor a s, exec_anchorReadDone_of_loading hs a,
    fun r => ⟨anchorBase_eq a r, anchorExponent_eq a r, anchorVector_eq a r⟩, rfl, rfl, ?valid, ?format, ?ring, ?progress⟩
  case valid =>
    intro hf hr hp
    have passes : anchorFailure a = none := by simp [anchorFailure_of_rings_good hf hr, hp]
    rw [validateAnchor_of_valid passes]
    exact ⟨enterRunning_frame a s, rfl, enterRunning_ring a s, rfl⟩
  case format =>
    exact fun hf => validateAnchor_of_failure (anchorFailure_of_format hf) s
  case ring =>
    exact fun r hf hr low => validateAnchor_of_failure (anchorFailure_of_ring hf hr low) s
  case progress =>
    intro hf hr hp
    exact validateAnchor_of_failure (by simp [anchorFailure_of_rings_good hf hr, hp]) s

end Sys2Proof.Machine
end
